-- ==== Sys2Proof/Word.lean ====
section
/-! DEFINITION. The bit-vector types of the block: a colour channel, an operand or data word, a command word, a strobe. -/

namespace Sys2Proof

/-- One colour channel, or one byte of colour memory (20_memory R51). -/
abbrev Byte := BitVec 8

/-- Operand words `A` and `B` (30_encoding R71) and response data words `D0` and `D1` (R72). -/
abbrev Data := BitVec 32

/-- A command word `CW` (30_encoding R70). -/
abbrev CommandWord := BitVec 68

end Sys2Proof
end

