-- ==== Sys2Proof/Syntax.lean ====
section
/-! DEFINITION. The commands of the block: one constructor for each row of the opcode table (30_encoding R74, R75). -/

namespace Sys2Proof

/-- One constructor per opcode-table row. A command of the command port carries both operand words as they arrive
(30_encoding R71), those it ignores too: that they have no effect is said by the machine, not hidden in the decoder
(log 22). TICK has no fields (R70). -/
inductive Instr where
  | configure (a b : Data)
  | feed (a b : Data)
  | start (a b : Data)
  | asyncReset (a b : Data)
  | getTimer (a b : Data)
  | getDropped (a b : Data)
  | getPin (a b : Data)
  | getT0l (a b : Data)
  | getT0h (a b : Data)
  | getT1l (a b : Data)
  | getT1h (a b : Data)
  | getTres (a b : Data)
  | getStatus (a b : Data)
  | reserved0 (a b : Data)
  | reserved5 (a b : Data)
  | reservedF (a b : Data)
  | tick
deriving DecidableEq, Repr

/-- The mnemonic of a command, as the opcode table spells it. -/
def Instr.mnemonic : Instr → String
  | .configure _ _ => "CONFIGURE"
  | .feed _ _ => "FEED"
  | .start _ _ => "START"
  | .asyncReset _ _ => "ASYNC_RESET"
  | .getTimer _ _ => "GET_TIMER"
  | .getDropped _ _ => "GET_DROPPED"
  | .getPin _ _ => "GET_PIN"
  | .getT0l _ _ => "GET_T0L"
  | .getT0h _ _ => "GET_T0H"
  | .getT1l _ _ => "GET_T1L"
  | .getT1h _ _ => "GET_T1H"
  | .getTres _ _ => "GET_TRES"
  | .getStatus _ _ => "GET_STATUS"
  | .reserved0 _ _ => "reserved__ILLEGAL"
  | .reserved5 _ _ => "reserved__ILLEGAL"
  | .reservedF _ _ => "reserved__ILLEGAL"
  | .tick => "TICK"

/-- What arrives on one of the two ports (30_encoding R70): a command word from FG, or one strobe bit from TK. -/
inductive PortWord where
  | command (cw : CommandWord)
  | strobe (level : Bool)
deriving DecidableEq, Repr

end Sys2Proof
end

