-- ==== Sys2Proof/Decode.lean ====
section
/-! DEFINITION. Reading commands from the words of the two ports, and writing them (30_encoding R70 to R75). -/

namespace Sys2Proof

/-- `OP = CW[3:0]` (30_encoding R71). -/
def opField (cw : CommandWord) : BitVec 4 := cw.extractLsb' 0 4

/-- `A = CW[35:4]` (30_encoding R71). -/
def aField (cw : CommandWord) : Data := cw.extractLsb' 4 32

/-- `B = CW[67:36]` (30_encoding R71). -/
def bField (cw : CommandWord) : Data := cw.extractLsb' 36 32

/-- The opcode map of 30_encoding R74, with the reserved opcodes of R75. All 16 values are listed. -/
def commandOfOpcode (op : Fin 16) (a b : Data) : Instr :=
  match op with
  | 0x0 => .reserved0 a b
  | 0x1 => .configure a b
  | 0x2 => .feed a b
  | 0x3 => .start a b
  | 0x4 => .asyncReset a b
  | 0x5 => .reserved5 a b
  | 0x6 => .getTimer a b
  | 0x7 => .getDropped a b
  | 0x8 => .getPin a b
  | 0x9 => .getT0l a b
  | 0xA => .getT0h a b
  | 0xB => .getT1l a b
  | 0xC => .getT1h a b
  | 0xD => .getTres a b
  | 0xE => .getStatus a b
  | 0xF => .reservedF a b
  | ⟨_ + 16, h⟩ => absurd h (by omega)

/-- Every command word is a command: the opcode is read from `CW[3:0]` alone (30_encoding R70). -/
def decodeCommand (cw : CommandWord) : Instr :=
  commandOfOpcode (opField cw).toFin (aField cw) (bField cw)

/-- Why a port word is no command. -/
inductive DecodeError where
  /-- The strobe is 0: TK issues no TICK (30_encoding R70, "a strobe of 1 is one TICK command"). -/
  | noStrobe
deriving DecidableEq, Repr

/-- The command a port word is. Total; the one word that is no command is rejected by name. -/
def decode : PortWord → Except DecodeError Instr
  | .command cw => .ok (decodeCommand cw)
  | .strobe true => .ok .tick
  | .strobe false => .error .noStrobe

/-- `CW = {B, A, OP}` (30_encoding R71). -/
def commandWord (op : BitVec 4) (a b : Data) : CommandWord := b ++ (a ++ op)

/-- The word of a command on its port, from the opcode map of 30_encoding R74 and R75. -/
def encode : Instr → PortWord
  | .reserved0 a b => .command (commandWord 0x0 a b)
  | .configure a b => .command (commandWord 0x1 a b)
  | .feed a b => .command (commandWord 0x2 a b)
  | .start a b => .command (commandWord 0x3 a b)
  | .asyncReset a b => .command (commandWord 0x4 a b)
  | .reserved5 a b => .command (commandWord 0x5 a b)
  | .getTimer a b => .command (commandWord 0x6 a b)
  | .getDropped a b => .command (commandWord 0x7 a b)
  | .getPin a b => .command (commandWord 0x8 a b)
  | .getT0l a b => .command (commandWord 0x9 a b)
  | .getT0h a b => .command (commandWord 0xA a b)
  | .getT1l a b => .command (commandWord 0xB a b)
  | .getT1h a b => .command (commandWord 0xC a b)
  | .getTres a b => .command (commandWord 0xD a b)
  | .getStatus a b => .command (commandWord 0xE a b)
  | .reservedF a b => .command (commandWord 0xF a b)
  | .tick => .strobe true

/-- The port word that a table word stands for. The opcode table gives a CMD row at least the four bits of `OP` and the
TICK row one bit, and the two ports share the number 1 (CONFIGURE, TICK). So a word of fewer than four bits is a
strobe and any other is a command word (log 16). `none`: a command word of more than 68 bits. -/
def portWordOfTable (nbits w : Nat) : Option PortWord :=
  if nbits < 4 then some (.strobe (w % 2 == 1))
  else if w % 2 ^ nbits < 2 ^ 68 then some (.command (BitVec.ofNat 68 (w % 2 ^ nbits)))
  else none

/-- What the decoder reads from a word numbered as the opcode table numbers it (log 16). -/
def decodeTableWord (nbits w : Nat) : Option Instr :=
  match portWordOfTable nbits w with
  | none => none
  | some word =>
    match decode word with
    | .ok i => some i
    | .error _ => none

end Sys2Proof
end

