-- ==== Sys2Proof/Config.lean ====
section
/-! DEFINITION. The implementation parameters of 00_scope R7 and R9, and the free values of the points the spec states no value for. -/

namespace Sys2Proof

/-- The parameters of 00_scope R7. R8: "A model must take them as arguments". The machine carries them as the constant
field `State.params`, so every statement over states is a statement over parameter sets (log 1).
Durations are in `TU`. -/
structure Params where
  /-- `TU` as a number of picoseconds. R7 gives its default as 1 ps; no rule reads it (log 4). -/
  tuPicoseconds : Nat
  nomT0l : Nat
  nomT0h : Nat
  nomT1l : Nat
  nomT1h : Nat
  nomRes : Nat
  tol : Nat
  aw : Nat
  pinW : Nat
  tpW : Nat
  cntW : Nat
  dropW : Nat
  /-- `BASE` of 20_memory R53, the byte address of channel 0 of position 0. "`BASE` is the platform's" (log 11). -/
  base : Nat
deriving DecidableEq, Repr

/-- The defaults of R7: "the spec's own choice", the durations from general knowledge (93 G1; log 2). -/
def Params.default : Params where
  tuPicoseconds := 1
  nomT0l := 850000
  nomT0h := 400000
  nomT1l := 450000
  nomT1h := 800000
  nomRes := 50000000
  tol := 150000
  aw := 16
  pinW := 8
  tpW := 32
  cntW := 16
  dropW := 16
  base := 0

/-- The conditions of 00_scope R9 and 30_encoding R71 on a parameter set. -/
abbrev Params.Valid (p : Params) : Prop :=
  0 < p.tuPicoseconds ∧ 0 < p.nomRes ∧ 1 ≤ p.aw ∧ 1 ≤ p.pinW ∧ 1 ≤ p.tpW ∧ 1 ≤ p.dropW ∧ 2 ≤ p.cntW ∧
    p.pinW ≤ 32 ∧ p.aw ≤ 32 ∧ p.tpW ≤ 32

/-- `CNT_MAX = 2^CNT_W - 2` (00_scope R7). -/
def Params.cntMax (p : Params) : Nat := 2 ^ p.cntW - 2

/-- `POS_MASK = 2^AW - 1` (00_scope R7). -/
def Params.posMask (p : Params) : Nat := 2 ^ p.aw - 1

namespace Config

/-- FREE VALUE. The byte that the draw of this number gives for a channel that holds no valid storage: "a free draw,
under no law" (20_memory R55, 93 U5; log 9). -/
opaque freeByte : Nat → Byte

/-- FREE VALUE. `WireBit` at an index outside 0..23, which 41 R106 does not give and no reachable state asks for
(log 12). -/
opaque strayWireBit : BitVec 24 → Nat → Bool

/-- FREE VALUE. The data word that reports a register of this width (over 32 bits) and value (of 2^32 or more).
30_encoding R72 says what a word "narrower than 32 bits" gives, and nothing of a wider one (log 13). -/
opaque wideData : Nat → Nat → Data

end Config

end Sys2Proof
end

