-- ==== Sys2Proof/Machine/State.lean ====
section
/-! DEFINITION. The state of the block (10_state R22, 20_memory R50), what its ports carry, the reasons a step can stop, and power-on reset. -/

namespace Sys2Proof.Machine

/-- The three channels of a colour in storage order: red is channel 0, green 1, blue 2 (20_memory R51). -/
inductive Channel where
  | red
  | green
  | blue
deriving DecidableEq, Repr

/-- A colour element, the triple `(r, g, b)` of 20_memory R51 and R52. -/
structure Colour where
  r : Byte
  g : Byte
  b : Byte
deriving DecidableEq, Repr

/-- Bytes of colour memory that hold valid storage, at `BASE + 3k + c` (20_memory R53), addresses strictly rising. A
byte that is not listed holds no valid storage and has no value (R55; log 10). -/
abbrev Memory := List Host.Cell

/-- The tick-count table (10_state R25), and the result of the calibrator (40 R90). -/
structure TickCounts where
  t0l : Nat
  t0h : Nat
  t1l : Nat
  t1h : Nat
  res : Nat
deriving DecidableEq, Repr

/-- The response codes of 30_encoding R76. Codes 4, 5 and 6 are never produced and have no constructor (93 U9). -/
inductive ResponseCode where
  | ok
  | finished
  | locked
  | fail
  | illegal
deriving DecidableEq, Repr

/-- The 3-bit code `RC` (30_encoding R76). -/
def ResponseCode.rc : ResponseCode → BitVec 3
  | .ok => 0
  | .finished => 1
  | .locked => 2
  | .fail => 3
  | .illegal => 7

/-- What a command answers, `(code, d0, d1)` (00_scope R11, 30_encoding R72). -/
structure Answer where
  code : ResponseCode
  d0 : Data
  d1 : Data
deriving DecidableEq, Repr

/-- The guarded commands (20_memory R58). -/
inductive GuardedOp where
  | configure
  | feed
  | asyncReset
deriving DecidableEq, Repr

/-- `FGSTATE`, the command port's in-flight command (10_state R39). -/
inductive FgState where
  | idle
  | held (op : GuardedOp) (a b : Data)
  | done (code : ResponseCode) (d0 d1 : Data)
deriving DecidableEq, Repr

/-- Whose turn it is: one of the two agents of 20_memory R56. FG has two kinds of turn. -/
inductive Agent where
  /-- FG goes on: the next step of its command, or the action on colour memory that stands first. -/
  | fg
  /-- FG acts on colour memory, at "any time" (60_exceptions R172), its own command in flight or not (log 25). -/
  | fgMemory
  /-- TK strobes TICK. -/
  | tk
deriving DecidableEq, Repr

/-- The two ports a response can go to (30_encoding R72: "on the port that issued it"). -/
inductive Port where
  | command
  | tick
deriving DecidableEq, Repr

/-- What FG does, one after the other: it issues a command word, stores one channel of a colour element
(20_memory R56, R57), or gives the storage of a position up (R55, R65; log 10). -/
inductive FgAction where
  | command (cw : CommandWord)
  | store (k : Nat) (c : Channel) (v : Byte)
  | reclaim (k : Nat)
deriving DecidableEq, Repr

/-- The events of the pin-driver port (00_scope R11): `PinMode(p)` and `PinWrite(p, l)`. -/
inductive PinEvent where
  | mode (p : Nat)
  | write (p : Nat) (l : Bool)
deriving DecidableEq, Repr

/-- An event with "the step that issued it" (10_state R40). -/
structure PinEntry where
  step : Nat
  event : PinEvent
deriving DecidableEq, Repr

/-- A response (30_encoding R72) with its port and step. -/
structure Response where
  step : Nat
  port : Port
  code : ResponseCode
  d0 : Data
  d1 : Data
deriving DecidableEq, Repr

/-- A `ReadColor` on the colour-memory read port (00_scope R2), with its step. -/
structure ReadEntry where
  step : Nat
  k : Nat
deriving DecidableEq, Repr

/-- The state. Registers are naturals of a stated width (00_scope R10; log 3); the widths are an invariant
(`Sys2Proof.Machine.Invariant`), not assumed by any step. -/
structure State where
  /-- The parameter set of 00_scope R7. No step writes it (log 1). -/
  params : Params
  /-- `CONFIGURED` (10_state R23). -/
  configured : Bool
  /-- `PIN` (10_state R24). -/
  pin : Nat
  /-- `TC_T0L`, `TC_T0H`, `TC_T1L`, `TC_T1H`, `TC_RES` (10_state R25). -/
  tc : TickCounts
  /-- `VIEW_START` (10_state R26). -/
  viewStart : Nat
  /-- `VIEW_END` (10_state R26). -/
  viewEnd : Nat
  /-- `RESETTING` (10_state R27). -/
  resetting : Bool
  /-- `START_PENDING` (10_state R28). -/
  startPending : Bool
  /-- `LEVEL` (10_state R30). -/
  level : Bool
  /-- `POS` (10_state R31). -/
  pos : Nat
  /-- `BIT` (10_state R32). -/
  bit : Nat
  /-- `BITVAL` (10_state R33). -/
  bitval : Bool
  /-- `COUNTER` (10_state R34). -/
  counter : Nat
  /-- `TARGET` (10_state R35). -/
  target : Nat
  /-- `LOCK` (10_state R37). -/
  lock : Nat
  /-- `DROPPED` (10_state R38). -/
  dropped : Nat
  /-- `FGSTATE` (10_state R39). -/
  fgState : FgState
  /-- `CM` (20_memory R50). -/
  memory : Memory
  /-- What FG has yet to do. A command word stays first until its response (20_memory R59; log 5, log 6); FG may act on
  colour memory meanwhile (log 25). -/
  program : List FgAction
  /-- Whose step comes next, in order: the interleaving of 20_memory R56, which is free (log 5). -/
  schedule : List Agent
  /-- The trace of pin events, oldest first (10_state R40). -/
  pinTrace : List PinEntry
  /-- The responses, oldest first (70 R195). -/
  responses : List Response
  /-- The reads of colour memory, oldest first (log 14). -/
  readTrace : List ReadEntry
  /-- The number of `ReadColor`s so far: where the free draws of 20_memory R55 are taken (log 9). -/
  draws : Nat
  /-- The index of the step that comes next (log 14). -/
  steps : Nat
deriving DecidableEq, Repr

/-- Reasons for which the machine is stuck: the step does not happen. All are safe: no reachable state gives the first
three, and the last is a store that the address space of 20_memory R50 has no place for. -/
inductive Fault where
  /-- Raised by every command of the command port that is presented while another one is in flight: 93 U19, "`stuck`:
  the step's precondition `FGSTATE = Idle` fails". Safe (log 7). -/
  | commandInFlight
  /-- Raised by `step` when `LOCK = 3`: 93 U17, "`stuck` if ever reached". Safe (log 8). -/
  | guardDepth
  /-- Raised by the RELEASE step of a guarded command when `LOCK = 0`: `LOCK - 1` is no natural number (20_memory R58,
  00_scope R10), and no reachable state asks for it. Safe (log 8). -/
  | guardUnderflow
  /-- Raised by a store or a reclaim of FG at a position outside `0 .. POS_MASK` (20_memory R50). Safe (log 23). -/
  | noSuchPosition
deriving DecidableEq, Repr

/-- Reasons for which the model gives no meaning. -/
inductive Refusal where
  /-- Raised by `exec` for an instruction that has no meaning yet (none is left). Safe. -/
  | notModelled (mnemonic : String)
  /-- Raised by `step` for a parameter set outside 00_scope R9 or 30_encoding R71: 93 U3, "`refuse`". Safe
  (log 17). -/
  | parametersOutOfRange
deriving DecidableEq, Repr

/-- Power-on (70 R180) at a parameter set: the reset values of 10_state R22, no pin event, no command placed. -/
def State.powerOn (p : Params) : State where
  params := p
  configured := false
  pin := 0
  tc := { t0l := 0, t0h := 0, t1l := 0, t1h := 0, res := 0 }
  viewStart := 0
  viewEnd := 0
  resetting := true
  startPending := false
  level := false
  pos := p.posMask
  bit := 23
  bitval := false
  counter := 0
  target := 0
  lock := 0
  dropped := 0
  fgState := .idle
  memory := []
  program := []
  schedule := []
  pinTrace := []
  responses := []
  readTrace := []
  draws := 0
  steps := 0

/-- The machine right after power-on reset at the default parameters (log 2, log 18). -/
def State.reset : State := State.powerOn Params.default

end Sys2Proof.Machine
end

