-- ==== Sys2Proof/Machine/Flags.lean ====
section
/-! DEFINITION. The status word that GET_STATUS packs from the flags (43 R147). -/

namespace Sys2Proof.Machine

/-- `zext_32({ CONFIGURED, LEVEL, START_PENDING, RESETTING })` (43 R147): bit 0 is `RESETTING`, bit 3 `CONFIGURED`. -/
def statusWord (s : State) : Data :=
  (BitVec.ofBool s.configured ++ BitVec.ofBool s.level ++ BitVec.ofBool s.startPending ++
    BitVec.ofBool s.resetting).setWidth 32

end Sys2Proof.Machine
end

