-- ==== Sys2Proof/Machine/Operands.lean ====
section
/-! DEFINITION. Operands taken from the words `A` and `B` (30_encoding R73), and data words of a response (R72). -/

namespace Sys2Proof.Machine

/-- `w[width-1:0]` as a natural number; higher bits are ignored (30_encoding R73). -/
def lowBits (width : Nat) (w : Data) : Nat := w.toNat % 2 ^ width

/-- CONFIGURE's `pin = A[PIN_W-1:0]`. -/
def pinOperand (p : Params) (a : Data) : Nat := lowBits p.pinW a

/-- CONFIGURE's `tp = B[TP_W-1:0]`. -/
def periodOperand (p : Params) (b : Data) : Nat := lowBits p.tpW b

/-- FEED's `new_start = A[AW-1:0]` and `new_end = B[AW-1:0]`. -/
def positionOperand (p : Params) (w : Data) : Nat := lowBits p.aw w

/-- `zext_32(v)` of a register of `width` bits (30_encoding R72), also of a wider register whose value has 32 bits. A
value of more bits has no data word that the spec states, and its data word is a free value (log 13). -/
def zext32 (width v : Nat) : Data :=
  if width ≤ 32 ∨ v < 2 ^ 32 then BitVec.ofNat 32 v else Config.wideData width v

/-- `zext_32(v)` where a rule bounds the data word: a free word too is "at least 1" (43 R146; log 13). -/
def zext32Positive (width v : Nat) : Data :=
  if width ≤ 32 ∨ v < 2 ^ 32 then BitVec.ofNat 32 v
  else if Config.wideData width v = 0 then 1 else Config.wideData width v

end Sys2Proof.Machine
end

