-- ==== Sys2Proof/Machine/Ops.lean ====
section
/-! DEFINITION. The shared operations: colour memory, the pin driver, responses, the cursor, the reentrancy guard and the reset entry. The block takes no exceptions (60_exceptions R162, R163), so there is none to take or to return from. -/

namespace Sys2Proof.Machine

/-! ### Colour memory -/

/-- The channel number of 20_memory R51. -/
def Channel.index : Channel → Nat
  | .red => 0
  | .green => 1
  | .blue => 2

/-- "channel `c` of position `k` at byte address `BASE + 3*k + c`" (20_memory R53). -/
def cellAddress (p : Params) (k : Nat) (c : Channel) : Nat := p.base + 3 * k + c.index

/-- Addresses strictly rise, so equal memories are equal lists. An unlisted byte has no value, so no entry equals it. -/
abbrev Memory.wf (m : Memory) : Prop := m.Pairwise fun x y => x.1 < y.1

/-- The byte at an address, if it holds valid storage. -/
def Memory.read (m : Memory) (a : Nat) : Option Byte :=
  match m with
  | [] => none
  | (x, v) :: rest => if x = a then some v else Memory.read rest a

/-- Write one byte; the address holds valid storage from then on. -/
def Memory.write (m : Memory) (a : Nat) (v : Byte) : Memory :=
  match m with
  | [] => [(a, v)]
  | (x, w) :: rest =>
    if a < x then (a, v) :: (x, w) :: rest
    else if a = x then (a, v) :: rest
    else (x, w) :: Memory.write rest a v

/-- The address holds valid storage no more. -/
def Memory.erase (m : Memory) (a : Nat) : Memory := m.filter fun x => x.1 != a

/-- The three bytes of a position hold valid storage no more: "The host may then reclaim" it (20_memory R65). -/
def Memory.reclaim (p : Params) (m : Memory) (k : Nat) : Memory :=
  ((m.erase (cellAddress p k .red)).erase (cellAddress p k .green)).erase (cellAddress p k .blue)

/-- One channel as the `ReadColor` that comes next sees it: the byte FG stored last (20_memory R57), or a fresh free
draw where there is no valid storage (R55; log 9). -/
def channelValue (s : State) (k : Nat) (c : Channel) : Byte :=
  match s.memory.read (cellAddress s.params k c) with
  | some v => v
  | none => Config.freeByte (3 * s.draws + c.index)

/-- What `ReadColor(k)` returns (20_memory R52). -/
def colourAt (s : State) (k : Nat) : Colour where
  r := channelValue s k .red
  g := channelValue s k .green
  b := channelValue s k .blue

/-- That a `ReadColor(k)` has taken place: it has "no side effect on `CM` or on any register" (20_memory R52). -/
def noteRead (k : Nat) (s : State) : State :=
  { s with readTrace := s.readTrace ++ [{ step := s.steps, k := k }], draws := s.draws + 1 }

/-- FG stores one channel (20_memory R57). -/
def storeChannel (k : Nat) (c : Channel) (v : Byte) (s : State) : Host.Outcome State Fault Refusal :=
  if k < 2 ^ s.params.aw then .next { s with memory := s.memory.write (cellAddress s.params k c) v }
  else .fault .noSuchPosition

/-- FG gives the storage of a position up (20_memory R55, R65; log 10). -/
def reclaimPosition (k : Nat) (s : State) : Host.Outcome State Fault Refusal :=
  if k < 2 ^ s.params.aw then .next { s with memory := s.memory.reclaim s.params k }
  else .fault .noSuchPosition

/-! ### Pin driver and responses -/

/-- An event on the pin-driver port, tagged with its step (10_state R40). -/
def pinEvent (e : PinEvent) (s : State) : State :=
  { s with pinTrace := s.pinTrace ++ [{ step := s.steps, event := e }] }

/-- `PinMode(PIN)` (00_scope R11). -/
def pinMode (s : State) : State := pinEvent (.mode s.pin) s

/-- `LEVEL <- l` and `PinWrite(PIN, l)`, which 10_state R30 ties to one another. -/
def drive (l : Bool) (s : State) : State := pinEvent (.write s.pin l) { s with level := l }

/-- The wire level of pin `p` after a trace, "the `l` of the last `PinWrite(p, l)` in it"; none if there is none
(10_state R40). -/
def wireLevel (p : Nat) (trace : List PinEntry) : Option Bool :=
  match trace with
  | [] => none
  | e :: rest =>
    match wireLevel p rest with
    | some l => some l
    | none =>
      match e.event with
      | .write q l => if q = p then some l else none
      | .mode _ => none

/-- A response on a port (30_encoding R72). -/
def respond (port : Port) (a : Answer) (s : State) : State :=
  { s with responses := s.responses ++ [{ step := s.steps, port := port, code := a.code, d0 := a.d0, d1 := a.d1 }] }

/-- `(code, 0, 0)`: "Absent data words are 0" (00_scope R11). -/
def plain (code : ResponseCode) : Answer := { code := code, d0 := 0, d1 := 0 }

/-! ### Cursor -/

/-- `(k - 1) mod 2^AW`. -/
def previousPosition (p : Params) (k : Nat) : Nat := (k + 2 ^ p.aw - 1) % 2 ^ p.aw

/-- `(k + 1) mod 2^AW` (10_state R31). -/
def nextPosition (p : Params) (k : Nat) : Nat := (k + 1) % 2 ^ p.aw

/-- The reinitialised cursor, "just before the first bit of the first color" (10_state R29). -/
def cursorInit (s : State) : State := { s with pos := previousPosition s.params s.viewStart, bit := 23 }

/-! ### Reset entry -/

/-- `ResetEntry()` (42 R130): nothing while Resetting (R133), the line forced low while high (R131), the ticks already
spent kept while low (R132). -/
def resetEntry (s : State) : State :=
  if s.resetting then s
  else
    let s := cursorInit { s with resetting := true }
    if s.level then
      let s := drive false s
      { s with counter := 1, target := s.tc.res }
    else { s with target := s.tc.res }

/-! ### The reentrancy guard -/

/-- A guarded operation inside a BODY step: its own increment and decrement of `LOCK`, which "no other agent ever sees"
(10_state R37). -/
def nested (f : State → State) (s : State) : State :=
  let s := f { s with lock := s.lock + 1 }
  { s with lock := s.lock - 1 }

/-- ACQUIRE (20_memory R58). -/
def acquire (op : GuardedOp) (a b : Data) (s : State) : State :=
  { s with lock := s.lock + 1, fgState := .held op a b }

/-- BODY (20_memory R58): run the body and keep its answer for RELEASE. -/
def runBody (body : State → State × Answer) (s : State) : State :=
  let (s, r) := body s
  { s with fgState := .done r.code r.d0 r.d1 }

/-- RELEASE (20_memory R58). -/
def release (code : ResponseCode) (d0 d1 : Data) (s : State) : State :=
  respond .command { code := code, d0 := d0, d1 := d1 } { s with lock := s.lock - 1, fgState := .idle }

/-- The FG step that a guarded command takes next: ACQUIRE, BODY or RELEASE, as `FGSTATE` says (20_memory R58; log 6).
The command whose BODY runs is the one in flight; another one is stuck (93 U19; log 7). -/
def guarded (op : GuardedOp) (a b : Data) (body : State → State × Answer) (s : State) :
    Host.Outcome State Fault Refusal :=
  match s.fgState with
  | .idle => .next (acquire op a b s)
  | .held op' a' b' =>
    if op' = op ∧ a' = a ∧ b' = b then .next (runBody body s) else .fault .commandInFlight
  | .done code d0 d1 => if s.lock = 0 then .fault .guardUnderflow else .next (release code d0 d1 s)

/-- An unguarded command: one FG step, "only when `FGSTATE = Idle`" (20_memory R59). -/
def unguarded (body : State → State × Answer) (s : State) : Host.Outcome State Fault Refusal :=
  match s.fgState with
  | .idle => .next (respond .command (body s).2 (body s).1)
  | .held _ _ _ => .fault .commandInFlight
  | .done _ _ _ => .fault .commandInFlight

end Sys2Proof.Machine
end

