-- ==== Sys2Proof/Machine/Accessors.lean ====
section
/-! DEFINITION. The read-only accessors (43 R140 to R149). -/

namespace Sys2Proof.Machine

/-- The common form (43 R140): one unguarded FG step that writes no register and responds OK "with the data its rule
names". That is the register as it is, also before the first successful CONFIGURE: THE MODEL'S CHOICE against the last
sentence of R140 where a START or a locked TICK has changed one by then (log 26). -/
def accessor (d0 d1 : State → Data) (s : State) : Host.Outcome State Fault Refusal :=
  unguarded (fun s => (s, { code := .ok, d0 := d0 s, d1 := d1 s })) s

/-- The accessor of one register of `width` bits. -/
def getRegister (width : Params → Nat) (value : State → Nat) (s : State) : Host.Outcome State Fault Refusal :=
  accessor (fun s => zext32 (width s.params) (value s)) (fun _ => 0) s

/-- GET_PIN (43 R141). -/
def execGetPin (s : State) : Host.Outcome State Fault Refusal := getRegister Params.pinW State.pin s

/-- GET_T0L (43 R142). -/
def execGetT0l (s : State) : Host.Outcome State Fault Refusal := getRegister Params.cntW (·.tc.t0l) s

/-- GET_T0H (43 R143). -/
def execGetT0h (s : State) : Host.Outcome State Fault Refusal := getRegister Params.cntW (·.tc.t0h) s

/-- GET_T1L (43 R144). -/
def execGetT1l (s : State) : Host.Outcome State Fault Refusal := getRegister Params.cntW (·.tc.t1l) s

/-- GET_T1H (43 R145). -/
def execGetT1h (s : State) : Host.Outcome State Fault Refusal := getRegister Params.cntW (·.tc.t1h) s

/-- GET_TRES (43 R146): 0 before any successful CONFIGURE, "at least 1 after one". -/
def execGetTres (s : State) : Host.Outcome State Fault Refusal :=
  accessor (fun s => zext32Positive s.params.cntW s.tc.res) (fun _ => 0) s

/-- GET_STATUS (43 R147). -/
def execGetStatus (s : State) : Host.Outcome State Fault Refusal := accessor statusWord (fun _ => 0) s

/-- GET_TIMER (43 R148). -/
def execGetTimer (s : State) : Host.Outcome State Fault Refusal :=
  accessor (fun s => zext32 s.params.cntW s.counter) (fun s => zext32 s.params.cntW s.target) s

/-- GET_DROPPED (43 R149). -/
def execGetDropped (s : State) : Host.Outcome State Fault Refusal := getRegister Params.dropW State.dropped s

end Sys2Proof.Machine
end

