-- ==== Sys2Proof/Machine/AsyncReset.lean ====
section
/-! DEFINITION. ASYNC_RESET (42 R134). -/

namespace Sys2Proof.Machine

/-- ASYNC_RESET's BODY: `ResetEntry()`, with its own nested guard (42 R130, R134). -/
def asyncResetBody (s : State) : State × Answer := (nested resetEntry s, plain .ok)

/-- ASYNC_RESET (42 R134). `A` and `B` are only kept in `FGSTATE` (20_memory R58). -/
def execAsyncReset (a b : Data) (s : State) : Host.Outcome State Fault Refusal :=
  guarded .asyncReset a b asyncResetBody s

end Sys2Proof.Machine
end

