-- ==== Sys2Proof/Machine/Calibrator.lean ====
section
/-! DEFINITION. The timing calibrator (40 R90 to R95): exact arithmetic on naturals. -/

namespace Sys2Proof.Machine

/-- `|x - y|` of two naturals (00_scope R10). -/
def absDiff (x y : Nat) : Nat := if x ≤ y then y - x else x - y

/-- `ceil_div(a, b)` for `b > 0` (00_scope R10). -/
def ceilDiv (a b : Nat) : Nat := (a + b - 1) / b

/-- `Quant(d, tp)` (40 R91): the floor candidate if it is within `TOL`, else the next one if that is; else FAIL. -/
def quant (p : Params) (d tp : Nat) : Option Nat :=
  let k0 := d / tp
  if absDiff (k0 * tp) d ≤ p.tol then some k0
  else
    let k1 := k0 + 1
    if absDiff (k1 * tp) d ≤ p.tol then some k1 else none

/-- `Calibrate(tp)` (40 R95); `none` is FAIL. -/
def calibrate (p : Params) (tp : Nat) : Option TickCounts :=
  if tp = 0 then none
  else
    match quant p p.nomT0l tp, quant p p.nomT0h tp, quant p p.nomT1l tp, quant p p.nomT1h tp with
    | some c0l, some c0h, some c1l, some c1h =>
      let cres := ceilDiv p.nomRes tp
      if max (max (max c0l c0h) (max c1l c1h)) cres > p.cntMax then none
      else some { t0l := c0l, t0h := c0h, t1l := c1l, t1h := c1h, res := cres }
    | _, _, _, _ => none

end Sys2Proof.Machine
end

