-- ==== Sys2Proof/Machine/Configure.lean ====
section
/-! DEFINITION. CONFIGURE (40 R97, R98). -/

namespace Sys2Proof.Machine

/-- CONFIGURE's forced reset entry (40 R97): whatever the state, the pin low, the counter at 1 and a full reset symbol.
It is not `ResetEntry` (42 R133; 90 C11). -/
def forcedResetEntry (s : State) : State :=
  let s := cursorInit { s with resetting := true }
  let s := drive false s
  { s with counter := 1, target := s.tc.res }

/-- The success path of CONFIGURE's BODY (40 R97). -/
def bindPin (pin : Nat) (c : TickCounts) (s : State) : State :=
  nested forcedResetEntry (pinMode { s with tc := c, pin := pin, configured := true })

/-- CONFIGURE's BODY (40 R97); on failure no register is written and no pin event issued (R98). -/
def configureBody (a b : Data) (s : State) : State × Answer :=
  match calibrate s.params (periodOperand s.params b) with
  | none => (s, plain .fail)
  | some c => (bindPin (pinOperand s.params a) c s, plain .ok)

/-- CONFIGURE (40 R97). -/
def execConfigure (a b : Data) (s : State) : Host.Outcome State Fault Refusal :=
  guarded .configure a b (configureBody a b) s

end Sys2Proof.Machine
end

