-- ==== Sys2Proof/Machine/Reserved.lean ====
section
/-! DEFINITION. The reserved opcodes (30_encoding R75): they run, change no register and respond ILLEGAL. -/

namespace Sys2Proof.Machine

/-- "runs as one unguarded FG step", "changes no register", "responds `respond(ILLEGAL, 0, 0)`" (30_encoding R75). -/
def illegalBody (s : State) : State × Answer := (s, plain .illegal)

/-- Reserved opcode 0x0 (30_encoding R75). -/
def execReserved0 (s : State) : Host.Outcome State Fault Refusal := unguarded illegalBody s

/-- Reserved opcode 0x5 (30_encoding R75). -/
def execReserved5 (s : State) : Host.Outcome State Fault Refusal := unguarded illegalBody s

/-- Reserved opcode 0xF (30_encoding R75). -/
def execReservedF (s : State) : Host.Outcome State Fault Refusal := unguarded illegalBody s

end Sys2Proof.Machine
end

