-- ==== Sys2Proof/Machine/Codec.lean ====
section
/-! DEFINITION. The colour codec (41 R105, R106). -/

namespace Sys2Proof.Machine

/-- `WireWord(r, g, b) = { g[7:0], r[7:0], b[7:0] }` (41 R105). -/
def wireWord (c : Colour) : BitVec 24 := c.g ++ (c.r ++ c.b)

/-- `WireBit(c, i) = WireWord(c)[23 - i]` for `i` in 0..23, most significant bit first (41 R106). Outside it is a free
value (log 12). -/
def wireBit (c : Colour) (i : Nat) : Bool :=
  if i ≤ 23 then (wireWord c).getLsbD (23 - i) else Config.strayWireBit (wireWord c) i

end Sys2Proof.Machine
end

