-- ==== Sys2Proof/Machine/Transmit.lean ====
section
/-! DEFINITION. The transmission state machine: TICK (41 R108 to R118), FEED (R120) and START (R124). -/

namespace Sys2Proof.Machine

/-- The low-phase count of a bit: `v ? TC_T1L : TC_T0L` (41 R107). -/
def lowCount (t : TickCounts) (v : Bool) : Nat := if v then t.t1l else t.t0l

/-- The high-phase count of a bit: `v ? TC_T1H : TC_T0H` (41 R107). -/
def highCount (t : TickCounts) (v : Bool) : Nat := if v then t.t1h else t.t0h

/-- Low phase complete (41 R114). -/
def lowPhaseDone (s : State) : State × ResponseCode :=
  let s := drive true s
  ({ s with target := highCount s.tc s.bitval }, .ok)

/-- The cursor advances by one bit (41 R115). -/
def advanceCursor (s : State) : State :=
  if s.bit = 23 then { s with bit := 0, pos := nextPosition s.params s.pos } else { s with bit := s.bit + 1 }

/-- End of buffer (41 R116). -/
def endOfBuffer (s : State) : State × ResponseCode :=
  let s := cursorInit (drive false { s with resetting := true, startPending := false })
  ({ s with counter := 0, target := s.tc.res }, .finished)

/-- Next-bit decode: read, then the output write, then the target (41 R117). -/
def nextBit (s : State) : State × ResponseCode :=
  let c := colourAt s s.pos
  let s := noteRead s.pos s
  let s := drive false { s with bitval := wireBit c s.bit }
  ({ s with target := lowCount s.tc s.bitval }, .ok)

/-- High phase complete (41 R115 to R117). -/
def highPhaseDone (s : State) : State × ResponseCode :=
  let s := advanceCursor s
  if s.pos = s.viewEnd then endOfBuffer s else nextBit s

/-- Completion while Transmitting (41 R112): the branch that `LEVEL` selects. -/
def transmitCompletion (s : State) : State × ResponseCode :=
  if s.level then highPhaseDone s else lowPhaseDone s

/-- The Resetting-to-Transmitting transition (41 R113), up to its second pass. -/
def transition (s : State) : State :=
  let s := cursorInit { s with startPending := false, resetting := false }
  { s with level := true, target := 1 }

/-- `Pass()` of 41 R108, with what it does at a completion while Resetting left to `whileResetting`. It counts in the
reset hold too, where 60_exceptions R171 says that "every register keeps its value": THE MODEL'S CHOICE (log 27). -/
def passWith (whileResetting : State → State × ResponseCode) (s : State) : State × ResponseCode :=
  let s := { s with counter := s.counter + 1 }
  if s.counter < s.target then (s, .ok)
  else
    let s := { s with counter := 0 }
    if s.resetting then whileResetting s else transmitCompletion s

/-- The reset hold: "a full tick-counter restart" (41 R113). -/
def resetHold (s : State) : State × ResponseCode := ({ s with target := s.tc.res }, .ok)

/-- The second `Pass()` of a TICK. It follows the transition, so it finds `RESETTING = 0` and there is no third one
(41 R118). -/
def secondPass (s : State) : State × ResponseCode := passWith resetHold s

/-- The first `Pass()` of a TICK (41 R108, R111 to R113). -/
def tickPass (s : State) : State × ResponseCode :=
  passWith (fun s => if s.startPending then secondPass (transition s) else resetHold s) s

/-- TICK (41 R108): locked (R109), unconfigured (R110), or a counted tick (R111). -/
def tickStep (s : State) : State × ResponseCode :=
  if s.lock ≠ 0 then ({ s with dropped := (s.dropped + 1) % 2 ^ s.params.dropW }, .locked)
  else if s.configured then tickPass s
  else (s, .ok)

/-- TICK (41 R108). One TK step, whatever the command port is doing (20_memory R56, R58). -/
def execTick (s : State) : Host.Outcome State Fault Refusal :=
  .next (respond .tick (plain (tickStep s).2) (tickStep s).1)

/-- FEED's BODY (41 R120). -/
def feedBody (a b : Data) (s : State) : State × Answer :=
  let answer : Answer :=
    { code := .ok, d0 := zext32 s.params.aw s.viewStart, d1 := zext32 s.params.aw s.viewEnd }
  let s := { s with viewStart := positionOperand s.params a, viewEnd := positionOperand s.params b }
  (nested resetEntry (cursorInit s), answer)

/-- FEED (41 R120). -/
def execFeed (a b : Data) (s : State) : Host.Outcome State Fault Refusal :=
  guarded .feed a b (feedBody a b) s

/-- START's effect (41 R124). -/
def startBody (s : State) : State × Answer := ({ s with startPending := true }, plain .ok)

/-- START (41 R124), one unguarded FG step (20_memory R59; 90 C1). -/
def execStart (s : State) : Host.Outcome State Fault Refusal := unguarded startBody s

end Sys2Proof.Machine
end

