-- ==== Sys2Proof/Machine/Dispatch.lean ====
section
/-! DEFINITION. The step a command takes at a state: one arm per constructor of `Instr`. -/

namespace Sys2Proof.Machine

def exec (i : Instr) (s : State) : Host.Outcome State Fault Refusal :=
  match i with
  | .configure a b => Sys2Proof.Machine.execConfigure a b s
  | .feed a b => Sys2Proof.Machine.execFeed a b s
  | .start _ _ => Sys2Proof.Machine.execStart s
  | .asyncReset a b => Sys2Proof.Machine.execAsyncReset a b s
  | .getTimer _ _ => Sys2Proof.Machine.execGetTimer s
  | .getDropped _ _ => Sys2Proof.Machine.execGetDropped s
  | .getPin _ _ => Sys2Proof.Machine.execGetPin s
  | .getT0l _ _ => Sys2Proof.Machine.execGetT0l s
  | .getT0h _ _ => Sys2Proof.Machine.execGetT0h s
  | .getT1l _ _ => Sys2Proof.Machine.execGetT1l s
  | .getT1h _ _ => Sys2Proof.Machine.execGetT1h s
  | .getTres _ _ => Sys2Proof.Machine.execGetTres s
  | .getStatus _ _ => Sys2Proof.Machine.execGetStatus s
  | .reserved0 _ _ => Sys2Proof.Machine.execReserved0 s
  | .reserved5 _ _ => Sys2Proof.Machine.execReserved5 s
  | .reservedF _ _ => Sys2Proof.Machine.execReservedF s
  | .tick => Sys2Proof.Machine.execTick s

end Sys2Proof.Machine
end

