-- ==== Sys2Proof/Machine/Ports.lean ====
section
/-! DEFINITION. What the two ports bring, and the step of each agent (20_memory R56 to R59). -/

namespace Sys2Proof.Machine

/-- Change the state of an outcome that goes on. -/
def mapNext (f : State → State) (o : Host.Outcome State Fault Refusal) : Host.Outcome State Fault Refusal :=
  match o with
  | .next s => .next (f s)
  | .fault r => .fault r
  | .refused r => .refused r

/-- One step has taken place. -/
def countStep (s : State) : State := { s with steps := s.steps + 1 }

/-- A command that is in flight no more leaves the command port; one in flight stays (20_memory R59; log 6). -/
def finishCommand (s : State) : State :=
  match s.fgState with
  | .idle => { s with program := s.program.tail }
  | .held _ _ _ => s
  | .done _ _ _ => s

/-- FG's step: the next step of the command it presents, or one of its own actions on colour memory (20_memory R56,
R57). With nothing left to do it does nothing (log 15). -/
def fgStep (s : State) : Host.Outcome State Fault Refusal :=
  match s.program with
  | [] => .next s
  | .command cw :: _ => mapNext (fun t => countStep (finishCommand t)) (exec (decodeCommand cw) s)
  | .store k c v :: rest => mapNext countStep (storeChannel k c v { s with program := rest })
  | .reclaim k :: rest => mapNext countStep (reclaimPosition k { s with program := rest })

/-- The command word in flight, which stays on the command port. -/
def portWord (s : State) : List FgAction :=
  match s.fgState with
  | .idle => []
  | .held _ _ _ => s.program.take 1
  | .done _ _ _ => s.program.take 1

/-- What FG has yet to do besides the command in flight. -/
def afterPort (s : State) : List FgAction :=
  match s.fgState with
  | .idle => s.program
  | .held _ _ _ => s.program.drop 1
  | .done _ _ _ => s.program.drop 1

/-- FG's other step: a store "at any time" (60_exceptions R172), between ACQUIRE and RELEASE of its own command too, or
giving storage up. With no such action next it does nothing (log 15, log 25). -/
def fgMemoryStep (s : State) : Host.Outcome State Fault Refusal :=
  match afterPort s with
  | [] => .next s
  | .command _ :: _ => .next s
  | .store k c v :: rest => mapNext countStep (storeChannel k c v { s with program := portWord s ++ rest })
  | .reclaim k :: rest => mapNext countStep (reclaimPosition k { s with program := portWord s ++ rest })

/-- TK's step: a TICK and nothing else (20_memory R56). -/
def tkStep (s : State) : Host.Outcome State Fault Refusal := mapNext countStep (exec .tick s)

/-- The step of the agent that the schedule names; with no agent named, nothing moves (log 15). -/
def agentStep (s : State) : Host.Outcome State Fault Refusal :=
  match s.schedule with
  | [] => .next s
  | .fg :: rest => fgStep { s with schedule := rest }
  | .fgMemory :: rest => fgMemoryStep { s with schedule := rest }
  | .tk :: rest => tkStep { s with schedule := rest }

/-- The word arrives on its port and its agent moves next: FG presents a command word, or TK strobes (log 16). -/
def present (w : PortWord) (s : State) : State :=
  match w with
  | .command cw => { s with program := .command cw :: s.program, schedule := .fg :: s.schedule }
  | .strobe true => { s with schedule := .tk :: s.schedule }
  | .strobe false => s

end Sys2Proof.Machine
end

