-- ==== Sys2Proof/Machine/Step.lean ====
section
/-! DEFINITION. One step of the block: one atomic transition of one agent (00_scope R12, 20_memory R56). -/

namespace Sys2Proof.Machine

/-- One step. A parameter set outside 00_scope R9 is refused (93 U3) and `LOCK = 3` is stuck (93 U17). -/
def step (s : State) : Host.Outcome State Fault Refusal :=
  if ¬ s.params.Valid then .refused .parametersOutOfRange
  else if s.lock = 3 then .fault .guardDepth
  else agentStep s

/-- The table word presented on its port, so that the very next step runs it (log 16). -/
def State.withFetchWord (s : State) (nbits w : Nat) : State :=
  match portWordOfTable nbits w with
  | some word => present word s
  | none => s

end Sys2Proof.Machine
end

