-- ==== Sys2Proof/Machine/Assembler.lean ====
section
/-! DEFINITION. The text form of commands: syntax (30_encoding R77), step annotations (R78) and pseudo-instructions (R79). -/

namespace Sys2Proof.Machine

/-- What a program text places: FG's actions, and whose steps come in which order. -/
structure Listing where
  program : List FgAction
  schedule : List Agent
deriving DecidableEq, Repr

/-- One listing after another. -/
def Listing.append (x y : Listing) : Listing :=
  { program := x.program ++ y.program, schedule := x.schedule ++ y.schedule }

/-- One statement of a program text. -/
inductive AsmLine where
  /-- A command written alone (R77, R78). -/
  | alone (i : Instr)
  /-- `<MNEMONIC>.acquire <operands>`, `<MNEMONIC>.body`, `<MNEMONIC>.release` (R78). -/
  | acquire (i : Instr)
  | body
  | release
  /-- `CANCEL <p>`, `SEND <s>, <e>`, `TICKS <n>` (R79). -/
  | cancel (p : Data)
  | send (s e : Data)
  | ticks (n : Nat)
deriving DecidableEq, Repr

/-- The guarded commands (20_memory R58). -/
def isGuarded : Instr → Bool
  | .configure _ _ => true
  | .feed _ _ => true
  | .asyncReset _ _ => true
  | .start _ _ => false
  | .getTimer _ _ => false
  | .getDropped _ _ => false
  | .getPin _ _ => false
  | .getT0l _ _ => false
  | .getT0h _ _ => false
  | .getT1l _ _ => false
  | .getT1h _ _ => false
  | .getTres _ _ => false
  | .getStatus _ _ => false
  | .reserved0 _ _ => false
  | .reserved5 _ _ => false
  | .reservedF _ _ => false
  | .tick => false

/-- The action of FG that issues a command; none for TICK, which is TK's. -/
def fgActions (i : Instr) : List FgAction :=
  match encode i with
  | .command cw => [.command cw]
  | .strobe _ => []

/-- A command written alone: a guarded one "stands for its three steps in a row, with no TK step between them" (R78). -/
def aloneListing (i : Instr) : Listing where
  program := fgActions i
  schedule :=
    match encode i with
    | .command _ => if isGuarded i then [.fg, .fg, .fg] else [.fg]
    | .strobe _ => [.tk]

/-- What a statement places (R78, R79). THE MODEL'S CHOICE (log 20): `.body` and `.release` place a turn of FG and no
more, so with no command in flight, or with another command written before them, that turn runs what stands first then. -/
def AsmLine.listing : AsmLine → Listing
  | .alone i => aloneListing i
  | .acquire i => { program := fgActions i, schedule := [.fg] }
  | .body => { program := [], schedule := [.fg] }
  | .release => { program := [], schedule := [.fg] }
  | .cancel p => aloneListing (.feed p p)
  | .send s e => (aloneListing (.feed s e)).append (aloneListing (.start 0 0))
  | .ticks n => { program := [], schedule := List.replicate n .tk }

/-- Place a listing after what is already placed. -/
def load (l : Listing) (s : State) : State :=
  { s with program := s.program ++ l.program, schedule := s.schedule ++ l.schedule }

/-! ### Reading the text (R77) -/

/-- The value of a digit in a base up to 16. -/
def digitValue (base : Nat) (c : Char) : Option Nat :=
  let n := c.toNat
  let v :=
    if 48 ≤ n ∧ n ≤ 57 then n - 48
    else if 97 ≤ n ∧ n ≤ 102 then n - 87
    else if 65 ≤ n ∧ n ≤ 70 then n - 55
    else base
  if v < base then some v else none

/-- Digits, most significant first, after the value read so far. -/
def digitsValue (base : Nat) (acc : Nat) : List Char → Option Nat
  | [] => some acc
  | c :: rest => (digitValue base c).bind fun v => digitsValue base (base * acc + v) rest

/-- "natural numbers, written in decimal or with a `0x` prefix in hexadecimal" (R77). -/
def readNumber : List Char → Option Nat
  | [] => none
  | ['0', 'x'] => none
  | '0' :: 'x' :: rest => digitsValue 16 0 rest
  | cs => digitsValue 10 0 cs

/-- An operand word: a number of at most 32 bits (log 20). -/
def readWord (cs : List Char) : Option Data :=
  (readNumber cs).bind fun n => if n < 2 ^ 32 then some (BitVec.ofNat 32 n) else none

/-- Drop the spaces on both sides. -/
def trim (cs : List Char) : List Char :=
  ((cs.dropWhile (· == ' ')).reverse.dropWhile (· == ' ')).reverse

/-- The operands between commas, without the spaces around them. -/
def splitOperands (cs : List Char) : List (List Char) :=
  if trim cs = [] then [] else (cs.splitOn ',').map trim

/-- The mnemonic of a command with no operands (R77). -/
def plainCommand (m : List Char) : Option Instr :=
  if m = "START".toList then some (.start 0 0)
  else if m = "ASYNC_RESET".toList then some (.asyncReset 0 0)
  else if m = "GET_PIN".toList then some (.getPin 0 0)
  else if m = "GET_T0L".toList then some (.getT0l 0 0)
  else if m = "GET_T0H".toList then some (.getT0h 0 0)
  else if m = "GET_T1L".toList then some (.getT1l 0 0)
  else if m = "GET_T1H".toList then some (.getT1h 0 0)
  else if m = "GET_TRES".toList then some (.getTres 0 0)
  else if m = "GET_STATUS".toList then some (.getStatus 0 0)
  else if m = "GET_TIMER".toList then some (.getTimer 0 0)
  else if m = "GET_DROPPED".toList then some (.getDropped 0 0)
  else if m = "TICK".toList then some .tick
  else none

/-- The mnemonic of a command with two operands (R77). -/
def pairCommand (m : List Char) (a b : Data) : Option Instr :=
  if m = "CONFIGURE".toList then some (.configure a b)
  else if m = "FEED".toList then some (.feed a b)
  else none

/-- A command by its mnemonic and operands (R77). -/
def readCommand (m : List Char) (operands : List (List Char)) : Option Instr :=
  match operands with
  | [] => plainCommand m
  | [x, y] => (readWord x).bind fun a => (readWord y).bind fun b => pairCommand m a b
  | _ => none

/-- A guarded command by its mnemonic and operands, for the annotations of R78. -/
def readGuarded (m : List Char) (operands : List (List Char)) : Option Instr :=
  (readCommand m operands).bind fun i => if isGuarded i then some i else none

/-- A statement by its first word, its annotation and its operands (R77 to R79). THE MODEL'S CHOICE (log 20): `.body` and
`.release` are the next FG step of the command in flight, whichever guarded mnemonic is written before them. -/
def readAsmLine (m suffix : List Char) (operands : List (List Char)) : Option AsmLine :=
  if suffix = ".acquire".toList then (readGuarded m operands).map .acquire
  else if suffix = ".body".toList then
    if operands = [] ∧ (m = "CONFIGURE".toList ∨ m = "FEED".toList ∨ m = "ASYNC_RESET".toList) then some .body else none
  else if suffix = ".release".toList then
    if operands = [] ∧ (m = "CONFIGURE".toList ∨ m = "FEED".toList ∨ m = "ASYNC_RESET".toList) then some .release
    else none
  else if suffix ≠ [] then none
  else if m = "CANCEL".toList then
    match operands with
    | [x] => (readWord x).map .cancel
    | _ => none
  else if m = "SEND".toList then
    match operands with
    | [x, y] => (readWord x).bind fun s => (readWord y).map fun e => .send s e
    | _ => none
  else if m = "TICKS".toList then
    match operands with
    | [x] => (readNumber x).map .ticks
    | _ => none
  else (readCommand m operands).map .alone

/-- One line: "`;` starts a comment that runs to the end of the line" (R77). A line with nothing else places nothing. -/
def assembleLine (line : List Char) : Option Listing :=
  let text := trim (line.takeWhile (· != ';'))
  if text = [] then some { program := [], schedule := [] }
  else
    let word := text.takeWhile (· != ' ')
    let operands := splitOperands (text.dropWhile (· != ' '))
    (readAsmLine (word.takeWhile (· != '.')) (word.dropWhile (· != '.')) operands).map AsmLine.listing

/-- A program text, line by line; `none` where a line is no statement. -/
def assemble : List (List Char) → Option Listing
  | [] => some { program := [], schedule := [] }
  | line :: rest => (assembleLine line).bind fun x => (assemble rest).map x.append

end Sys2Proof.Machine
end

