-- ==== Sys2Proof/Safety.lean ====
section
/-! DEFINITION. The terms in which claims speak of runs: the invariant of the machine, TICKs in a row, a command written alone. -/

namespace Sys2Proof.Machine

/-- Go on from an outcome that goes on. -/
def andThen (o : Host.Outcome State Fault Refusal) (f : State → Host.Outcome State Fault Refusal) :
    Host.Outcome State Fault Refusal :=
  match o with
  | .next s => f s
  | .fault r => .fault r
  | .refused r => .refused r

/-- `n` TICKs in a row, with no FG step between them (30_encoding R79). -/
def ticks : Nat → State → Host.Outcome State Fault Refusal
  | 0, s => .next s
  | n + 1, s => andThen (tkStep s) (ticks n)

/-- A command written alone: the three steps of a guarded one in a row, the one step of any other (30_encoding R78). -/
def alone (i : Instr) (s : State) : Host.Outcome State Fault Refusal :=
  if isGuarded i then andThen (exec i s) fun s => andThen (exec i s) (exec i) else exec i s

/-- The responses of `s` and one more, given in the step that comes next. -/
def withResponse (s : State) (port : Port) (code : ResponseCode) (d0 d1 : Data) : List Response :=
  s.responses ++ [{ step := s.steps, port := port, code := code, d0 := d0, d1 := d1 }]

/-- The pin trace of `s` and one `PinWrite(p, l)` more, issued in the step that comes next. -/
def withPinWrite (s : State) (p : Nat) (l : Bool) : List PinEntry :=
  s.pinTrace ++ [{ step := s.steps, event := .write p l }]

/-- The reads of `s` and one `ReadColor(k)` more, made in the step that comes next. -/
def withRead (s : State) (k : Nat) : List ReadEntry := s.readTrace ++ [{ step := s.steps, k := k }]

/-- What holds between any two steps: the reachable-state invariants of 10_state R36 and, with them, the width of every
register (R22), the range of the counts (R25), the depth of the guard (R37), what a finished BODY can answer (R76) and
the canonical form of colour memory. -/
structure Invariant (s : State) : Prop where
  params_valid : s.params.Valid
  /-- R36 item 1. -/
  bit_legal : s.bit ≤ 23
  /-- R36 item 2. -/
  transmitting_configured : s.resetting = false → s.configured = true
  /-- R36 item 3. -/
  resetting_cursor :
    s.resetting = true → s.level = false ∧ s.pos = previousPosition s.params s.viewStart ∧ s.bit = 23
  /-- R36 item 4. -/
  resetting_target : s.resetting = true → s.configured = true → s.target = s.tc.res
  /-- R36 item 5. -/
  timer_bound : s.counter ≤ s.params.cntMax ∧ s.target ≤ s.params.cntMax
  /-- R36 item 6. -/
  guard_free : s.fgState = .idle → s.lock = 0
  guard_held : s.fgState ≠ .idle → s.lock = 1
  counts_bound :
    s.tc.t0l ≤ s.params.cntMax ∧ s.tc.t0h ≤ s.params.cntMax ∧ s.tc.t1l ≤ s.params.cntMax ∧
      s.tc.t1h ≤ s.params.cntMax ∧ s.tc.res ≤ s.params.cntMax
  /-- "Before any successful CONFIGURE" (43 R140) these have their reset values: CONFIGURE, or a TICK or reset entry that
  CONFIGURED lets through, is their only writer (R22, 41 R110). -/
  unconfigured_values :
    s.configured = false →
      s.pin = 0 ∧ s.tc = { t0l := 0, t0h := 0, t1l := 0, t1h := 0, res := 0 } ∧ s.counter = 0 ∧ s.target = 0
  reset_count : s.configured = true → 1 ≤ s.tc.res
  done_code : ∀ code d0 d1, s.fgState = .done code d0 d1 → code = .ok ∨ code = .fail
  widths :
    s.pin < 2 ^ s.params.pinW ∧ s.viewStart < 2 ^ s.params.aw ∧ s.viewEnd < 2 ^ s.params.aw ∧
      s.pos < 2 ^ s.params.aw ∧ s.dropped < 2 ^ s.params.dropW
  memory_wf : s.memory.wf
  memory_range : ∀ x ∈ s.memory, s.params.base ≤ x.1 ∧ x.1 < s.params.base + 3 * 2 ^ s.params.aw

/-- The command of a guarded operation with its operand words. -/
def GuardedOp.instr (op : GuardedOp) (a b : Data) : Instr :=
  match op with
  | .configure => .configure a b
  | .feed => .feed a b
  | .asyncReset => .asyncReset a b

/-- FG presents the command that is in flight: it "issues no command while a guarded command is in flight"
(20_memory R59). -/
def PortAgrees (s : State) : Prop :=
  match s.fgState with
  | .idle => True
  | .held op a b => ∃ cw rest, s.program = .command cw :: rest ∧ decodeCommand cw = op.instr a b
  | .done _ _ _ => ∃ cw rest, s.program = .command cw :: rest ∧ isGuarded (decodeCommand cw) = true

/-- FG stores to, and gives up, only positions that exist (20_memory R50). -/
def StoresInRange (s : State) : Prop :=
  ∀ act ∈ s.program,
    match act with
    | .command _ => True
    | .store k _ _ => k < 2 ^ s.params.aw
    | .reclaim k => k < 2 ^ s.params.aw

/-- The positions of `n` colours from `k` on, counted modulo `2^AW` (10_state R26). -/
def positionsFrom (p : Params) : Nat → Nat → List Nat
  | 0, _ => []
  | n + 1, k => k :: positionsFrom p n (nextPosition p k)

/-- The number of colours of the view (10_state R26). -/
def viewSize (s : State) : Nat := (s.viewEnd + 2 ^ s.params.aw - s.viewStart) % 2 ^ s.params.aw

/-- The positions of the view, in the order they are sent. -/
def viewPositions (s : State) : List Nat := positionsFrom s.params (viewSize s) s.viewStart

/-- The bits of a frame in the order of 41 R106, for colour memory as `s` has it. -/
def frameBits (s : State) : List Bool :=
  (viewPositions s).flatMap fun k => (List.range 24).map (wireBit (colourAt s k))

/-- Counted ticks of a low phase and of a high phase (41 R119). -/
def lowTicks (t : TickCounts) (v : Bool) : Nat := max 1 (if v then t.t1l else t.t0l)

/-- See `lowTicks`. -/
def highTicks (t : TickCounts) (v : Bool) : Nat := max 1 (if v then t.t1h else t.t0h)

/-- Counted ticks of the bits of a frame (41 R119, `S_(24N)`). -/
def frameTicks (t : TickCounts) (bits : List Bool) : Nat := (bits.map fun v => lowTicks t v + highTicks t v).sum

/-- The pin writes of the bits of a frame whose first low write is at step `start`, with the final low write
(41 R119, R122). -/
def frameWrites (pin : Nat) (t : TickCounts) (start : Nat) : List Bool → List PinEntry
  | [] => [{ step := start, event := .write pin false }]
  | v :: rest =>
    { step := start, event := .write pin false } ::
      { step := start + lowTicks t v, event := .write pin true } ::
        frameWrites pin t (start + lowTicks t v + highTicks t v) rest

end Sys2Proof.Machine
end

