-- ==== Sys2Proof/WellFormed.lean ====
section
/-! DEFINITION. The canonical form of a command: every operand bit that 30_encoding R73 does not name is 0. -/

namespace Sys2Proof

/-- The operand word uses no bit at or above `width` (30_encoding R73: higher bits "should be written as 0"). -/
def fitsWidth (width : Nat) (w : Data) : Bool := decide (w.toNat < 2 ^ width)

/-- Both operand words of a command that takes none are 0 (30_encoding R73, R77). -/
def noOperands (a b : Data) : Bool := a == 0 && b == 0

/-- `i` is written as R73 and R77 ask at this parameter set. A command that is not well formed still runs, with the
extra bits ignored (R73; 95_test_vectors K4). -/
def WellFormed (p : Params) : Instr → Bool
  | .configure a b => fitsWidth p.pinW a && fitsWidth p.tpW b
  | .feed a b => fitsWidth p.aw a && fitsWidth p.aw b
  | .start a b => noOperands a b
  | .asyncReset a b => noOperands a b
  | .getTimer a b => noOperands a b
  | .getDropped a b => noOperands a b
  | .getPin a b => noOperands a b
  | .getT0l a b => noOperands a b
  | .getT0h a b => noOperands a b
  | .getT1l a b => noOperands a b
  | .getT1h a b => noOperands a b
  | .getTres a b => noOperands a b
  | .getStatus a b => noOperands a b
  | .reserved0 a b => noOperands a b
  | .reserved5 a b => noOperands a b
  | .reservedF a b => noOperands a b
  | .tick => true

end Sys2Proof
end

