-- ==== Sys2Proof/Certificates/Slice0/Obligations.lean ====
section
/-! DEFINITION. The statements for the provers, in the order of the spec's files. A conclusion `exec i s = .next { s with … }` says the result, the frame (every field not named, each byte of colour memory among them, is as in `s`) and that the command completes. -/

open Sys2Proof Sys2Proof.Machine

namespace Sys2Proof.Claims

/-- `|q - d| <= TOL`, on integers (40 R91). -/
def WithinTolerance (p : Params) (q d : Nat) : Prop := |(q : Int) - (d : Int)| ≤ (p.tol : Int)

/-- 40 R91 as a relation: `k` is the floor candidate if that is within tolerance, else the next one if that is. -/
def QuantisesTo (p : Params) (d tp k : Nat) : Prop :=
  (WithinTolerance p (d / tp * tp) d ∧ k = d / tp) ∨
    (¬ WithinTolerance p (d / tp * tp) d ∧ WithinTolerance p ((d / tp + 1) * tp) d ∧ k = d / tp + 1)

/-- The commands that write no register: the accessors and the reserved opcodes (43 R140, 30_encoding R75). -/
def WritesNothing : Instr → Bool
  | .configure _ _ => false
  | .feed _ _ => false
  | .start _ _ => false
  | .asyncReset _ _ => false
  | .getTimer _ _ => true
  | .getDropped _ _ => true
  | .getPin _ _ => true
  | .getT0l _ _ => true
  | .getT0h _ _ => true
  | .getT1l _ _ => true
  | .getT1h _ _ => true
  | .getTres _ _ => true
  | .getStatus _ _ => true
  | .reserved0 _ _ => true
  | .reserved5 _ _ => true
  | .reservedF _ _ => true
  | .tick => false

/-- `n` responses of one code on the tick port. -/
def TickResponses (n : Nat) (code : ResponseCode) (rs : List Response) : Prop :=
  rs.length = n ∧ ∀ r ∈ rs, r.port = .tick ∧ r.code = code ∧ r.d0 = 0 ∧ r.d1 = 0

/-- The cursor after a high phase: `(BIT, POS)` (41 R115). -/
def advancedBit (s : State) : Nat := if s.bit = 23 then 0 else s.bit + 1

/-- See `advancedBit`. -/
def advancedPos (s : State) : Nat := if s.bit = 23 then (s.pos + 1) % 2 ^ s.params.aw else s.pos

/-- A counted tick that completes a symbol (41 R111, R112). -/
def CompletesNow (s : State) : Prop := s.lock = 0 ∧ s.configured = true ∧ s.target ≤ s.counter + 1

/-- The TICK that comes next meets the end of the buffer (41 R116), in a frame or on the transition of an empty view. -/
def EndsBufferNow (s : State) : Prop :=
  CompletesNow s ∧
    ((s.resetting = false ∧ s.level = true ∧ advancedPos s = s.viewEnd) ∨
      (s.resetting = true ∧ s.startPending = true ∧ s.viewStart = s.viewEnd))

/-- `d` reports a register of `width` bits that holds `value`: the value zero-extended (30_encoding R72). What a value of
more than 32 bits gives is free (log 13). -/
def Reports (width value : Nat) (d : Data) : Prop := width ≤ 32 ∨ value < 2 ^ 32 → d = BitVec.ofNat 32 value

/-- From `Idle` the command responds (OK, 0, 0) and changes nothing else. -/
def RespondsZero (i : Instr) (s : State) : Prop :=
  exec i s = .next { s with responses := withResponse s .command .ok 0 0 }

end Sys2Proof.Claims

open Sys2Proof.Claims

/-! ### Encoding (30_encoding) -/

/-- 30_encoding R80, row by row, and the other opcodes of R74 and R75 by the words of 95_test_vectors. -/
def Obligations.OpcodeWordsDecode : Prop :=
  decodeCommand 0x00061A80000000051 = .configure 5 400000 ∧
  decodeCommand 0x00000011000000102 = .feed 0x10 0x11 ∧
  decodeCommand 0x00000000000000003 = .start 0 0 ∧
  decodeCommand 0x00000000000000004 = .asyncReset 0 0 ∧
  decodeCommand 0x00000000000000006 = .getTimer 0 0 ∧
  decodeCommand 0x00000000000000007 = .getDropped 0 0 ∧
  decodeCommand 0x00000000000000008 = .getPin 0 0 ∧
  decodeCommand 0x00000000000000009 = .getT0l 0 0 ∧
  decodeCommand 0x0000000000000000A = .getT0h 0 0 ∧
  decodeCommand 0x0000000000000000B = .getT1l 0 0 ∧
  decodeCommand 0x0000000000000000C = .getT1h 0 0 ∧
  decodeCommand 0x0000000000000000D = .getTres 0 0 ∧
  decodeCommand 0x0000000000000000E = .getStatus 0 0 ∧
  decodeCommand 0x00000000000000000 = .reserved0 0 0 ∧
  decodeCommand 0x00000000000000005 = .reserved5 0 0 ∧
  decodeCommand 0xFFFFFFFFFFFFFFFFF = .reservedF 0xFFFFFFFF 0xFFFFFFFF ∧
  decode (.strobe true) = .ok .tick

/-- 30_encoding R80: the worked encodings, from text to command word. -/
def Obligations.WorkedEncodingsAssemble : Prop :=
  (assembleLine "CONFIGURE 5, 400000".toList).map Listing.program = some [.command 0x00061A80000000051] ∧
  (assembleLine "FEED 0x10, 0x11".toList).map Listing.program = some [.command 0x00000011000000102] ∧
  (assembleLine "START".toList).map Listing.program = some [.command 0x00000000000000003] ∧
  (assembleLine "ASYNC_RESET".toList).map Listing.program = some [.command 0x00000000000000004] ∧
  (assembleLine "GET_TRES".toList).map Listing.program = some [.command 0x0000000000000000D] ∧
  (assembleLine "CANCEL 0x10".toList).map Listing.program = some [.command 0x00000010000000102]

/-- 30_encoding R70 to R75: no bit of a command is lost on its port. -/
def Obligations.DecodingUndoesEncoding : Prop := ∀ i : Instr, decode (encode i) = .ok i

/-- 30_encoding R70, R71, R74: every command word and the strobe is the word of one command only, bit for bit. -/
def Obligations.EncodingUndoesDecoding : Prop := ∀ (w : PortWord) (i : Instr), decode w = .ok i → encode i = w

/-- 30_encoding R70: "A decoder reads the opcode from `CW[3:0]` alone". -/
def Obligations.OpcodeBitsAloneSelectTheCommand : Prop :=
  ∀ cw cw' : CommandWord, cw.toNat % 16 = cw'.toNat % 16 → (decodeCommand cw).mnemonic = (decodeCommand cw').mnemonic

/-- 30_encoding R73: bits above a field's width have no effect, and every other command ignores `A` and `B`. -/
def Obligations.IgnoredOperandBitsHaveNoEffect : Prop :=
  ∀ (s : State) (a a' b b' : Data), s.fgState = .idle →
    (a.toNat % 2 ^ s.params.pinW = a'.toNat % 2 ^ s.params.pinW →
      b.toNat % 2 ^ s.params.tpW = b'.toNat % 2 ^ s.params.tpW →
      alone (.configure a b) s = alone (.configure a' b') s) ∧
    (a.toNat % 2 ^ s.params.aw = a'.toNat % 2 ^ s.params.aw →
      b.toNat % 2 ^ s.params.aw = b'.toNat % 2 ^ s.params.aw → alone (.feed a b) s = alone (.feed a' b') s) ∧
    alone (.asyncReset a b) s = alone (.asyncReset a' b') s ∧
    alone (.start a b) s = alone (.start a' b') s ∧
    alone (.getTimer a b) s = alone (.getTimer a' b') s ∧
    alone (.getDropped a b) s = alone (.getDropped a' b') s ∧
    alone (.getPin a b) s = alone (.getPin a' b') s ∧
    alone (.getT0l a b) s = alone (.getT0l a' b') s ∧
    alone (.getT0h a b) s = alone (.getT0h a' b') s ∧
    alone (.getT1l a b) s = alone (.getT1l a' b') s ∧
    alone (.getT1h a b) s = alone (.getT1h a' b') s ∧
    alone (.getTres a b) s = alone (.getTres a' b') s ∧
    alone (.getStatus a b) s = alone (.getStatus a' b') s ∧
    alone (.reserved0 a b) s = alone (.reserved0 a' b') s ∧
    alone (.reserved5 a b) s = alone (.reserved5 a' b') s ∧
    alone (.reservedF a b) s = alone (.reservedF a' b') s

/-- 30_encoding R75: a reserved opcode changes no register, issues no pin event, reads no memory and responds
ILLEGAL. -/
def Obligations.ReservedOpcodesRespondIllegal : Prop :=
  ∀ (s : State) (a b : Data) (i : Instr), i = .reserved0 a b ∨ i = .reserved5 a b ∨ i = .reservedF a b →
    s.fgState = .idle → exec i s = .next { s with responses := withResponse s .command .illegal 0 0 }

/-- 30_encoding R76: which command produces which response code, and the numbers of the codes. A FAIL is given by the
RELEASE of a BODY that ended in FAIL, and the last clause says which BODY does. -/
def Obligations.ResponseCodesHaveTheirProducers : Prop :=
  (∀ (i : Instr) (s t : State) (r : Response), Invariant s → exec i s = .next t → t.responses = s.responses ++ [r] →
    (r.code = .finished ↔ i = .tick ∧ EndsBufferNow s) ∧
    (r.code = .locked ↔ i = .tick ∧ s.lock ≠ 0) ∧
    (r.code = .fail ↔ i ≠ .tick ∧ ∃ d0 d1, s.fgState = .done .fail d0 d1) ∧
    (r.code = .illegal ↔ ∃ a b, i = .reserved0 a b ∨ i = .reserved5 a b ∨ i = .reservedF a b)) ∧
  (∀ (i : Instr) (s t : State) (op : GuardedOp) (a b d0 d1 : Data) (code : ResponseCode),
    exec i s = .next t → s.fgState = .held op a b → t.fgState = .done code d0 d1 →
    (code = .fail ∨ code = .ok) ∧
    (code = .fail ↔ op = .configure ∧ calibrate s.params (b.toNat % 2 ^ s.params.tpW) = none)) ∧
  ResponseCode.rc .ok = 0 ∧ ResponseCode.rc .finished = 1 ∧ ResponseCode.rc .locked = 2 ∧
  ResponseCode.rc .fail = 3 ∧ ResponseCode.rc .illegal = 7 ∧
  ∀ code : ResponseCode, code.rc ≠ 4 ∧ code.rc ≠ 5 ∧ code.rc ≠ 6

/-- 30_encoding R79: the pseudo-instructions are their expansions. `SEND` issues a FEED, three steps of FG, and then a
START, one step; `TICKS` names TK only. -/
def Obligations.PseudoInstructionsExpand : Prop :=
  (∀ p : Data, (AsmLine.cancel p).listing = (AsmLine.alone (.feed p p)).listing) ∧
  (∀ s e : Data, (AsmLine.send s e).listing =
    (AsmLine.alone (.feed s e)).listing.append (AsmLine.alone (.start 0 0)).listing) ∧
  (∀ s e : Data, (AsmLine.send s e).listing.schedule = [.fg, .fg, .fg, .fg]) ∧
  (∀ n : Nat, (AsmLine.ticks n).listing = { program := [], schedule := List.replicate n .tk })

/-! ### Steps, agents and the guard (20_memory) -/

/-- A step runs the decoded command. FG's turn: the command word it presents; TK's turn: TICK. Around `exec` a step
takes the turn off the schedule, counts itself, and takes a command that has ended off the command port
(20_memory R56, R59; log 5, log 6). -/
def Obligations.StepRunsThePresentedCommand : Prop :=
  (∀ (s : State) (cw : CommandWord) (i : Instr) (more : List FgAction) (rest : List Agent),
    s.params.Valid → s.lock ≠ 3 → s.schedule = .fg :: rest → s.program = .command cw :: more →
    decode (.command cw) = .ok i →
    step s =
      match exec i { s with schedule := rest } with
      | .next t =>
        .next { t with program := if t.fgState = .idle then t.program.tail else t.program, steps := t.steps + 1 }
      | .fault r => .fault r
      | .refused r => .refused r) ∧
  (∀ (s : State) (rest : List Agent),
    s.params.Valid → s.lock ≠ 3 → s.schedule = .tk :: rest →
    step s =
      match exec .tick { s with schedule := rest } with
      | .next t => .next { t with steps := t.steps + 1 }
      | .fault r => .fault r
      | .refused r => .refused r)

/-- The table word that the host places is the one the very next step decodes and runs (log 16). -/
def Obligations.PlacedTableWordRunsNext : Prop :=
  ∀ (s : State) (nbits w : Nat) (i : Instr),
    s.params.Valid → s.lock ≠ 3 → decodeTableWord nbits w = some i →
    step (s.withFetchWord nbits w) =
      match exec i { s.withFetchWord nbits w with schedule := s.schedule } with
      | .next t =>
        .next { t with
          program := if i ≠ .tick ∧ t.fgState = .idle then t.program.tail else t.program, steps := t.steps + 1 }
      | .fault r => .fault r
      | .refused r => .refused r

/-- THE MODEL'S CHOICE (log 15): with no agent named, or FG named with nothing to do, no step takes place; nor with FG's
turn on colour memory where no store or reclaim is next (log 25). 93 U3 and U17: a parameter set out of range is refused,
and `LOCK = 3` is stuck (log 17, log 8). -/
def Obligations.StepWithoutAnInputOrOutOfRange : Prop :=
  (∀ s : State, s.params.Valid → s.lock ≠ 3 → s.schedule = [] → step s = .next s) ∧
  (∀ (s : State) (rest : List Agent), s.params.Valid → s.lock ≠ 3 → s.schedule = .fg :: rest → s.program = [] →
    step s = .next { s with schedule := rest }) ∧
  (∀ (s : State) (rest : List Agent), s.params.Valid → s.lock ≠ 3 → s.schedule = .fgMemory :: rest →
    (∀ k c v more, afterPort s ≠ .store k c v :: more) → (∀ k more, afterPort s ≠ .reclaim k :: more) →
    step s = .next { s with schedule := rest }) ∧
  (∀ s : State, ¬ s.params.Valid → step s = .refused .parametersOutOfRange) ∧
  (∀ s : State, s.params.Valid → s.lock = 3 → step s = .fault .guardDepth)

/-- 20_memory R58: ACQUIRE, BODY and RELEASE of the three guarded commands. What each BODY does is stated with its
command. THE MODEL'S CHOICE in the last clause: `FGSTATE = Done` names no operation, so RELEASE is run by whichever guarded
command is presented then (log 6), and only with `LOCK` not 0 (log 8). -/
def Obligations.GuardedCommandRunsInThreeSteps : Prop :=
  ∀ (op : GuardedOp) (a b : Data) (s : State),
    (s.fgState = .idle →
      exec (op.instr a b) s = .next { s with lock := s.lock + 1, fgState := .held op a b }) ∧
    (s.fgState = .held op a b →
      ∃ t code d0 d1, exec (op.instr a b) s = .next t ∧ t.fgState = .done code d0 d1 ∧ t.lock = s.lock ∧
        t.responses = s.responses) ∧
    (∀ code d0 d1, s.fgState = .done code d0 d1 → s.lock ≠ 0 →
      exec (op.instr a b) s =
        .next { s with
          lock := s.lock - 1, fgState := .idle, responses := withResponse s .command code d0 d1 })

/-- 93 U19, 20_memory R59: while a guarded command is in flight, every unguarded command of the command port is stuck, and
in `Held` every guarded command but the one in flight. THE MODEL'S CHOICE: stuck is a named fault (log 7), and another
guarded command presented in `Done` is no case of this, since it runs RELEASE (log 6). -/
def Obligations.CommandInFlightShutsOutOthers : Prop :=
  (∀ (s : State) (i : Instr), s.fgState ≠ .idle → i ≠ .tick → isGuarded i = false →
    exec i s = .fault .commandInFlight) ∧
  (∀ (s : State) (op op' : GuardedOp) (a b a' b' : Data), s.fgState = .held op a b →
    op.instr a b ≠ op'.instr a' b' → exec (op'.instr a' b') s = .fault .commandInFlight)

/-- 41 R109: a locked tick. -/
def Obligations.LockedTickIsOnlyCounted : Prop :=
  ∀ s : State, s.lock ≠ 0 →
    exec .tick s =
      .next { s with
        dropped := (s.dropped + 1) % 2 ^ s.params.dropW, responses := withResponse s .tick .locked 0 0 }

/-- 20_memory R58, R60, 70 R184: any number of ticks inside a guarded window change nothing but `DROPPED`. -/
def Obligations.TicksInAGuardedWindowAreDropped : Prop :=
  ∀ (n : Nat) (s : State), s.lock ≠ 0 → s.dropped < 2 ^ s.params.dropW →
    ∃ rs, TickResponses n .locked rs ∧
      ticks n s =
        .next { s with
          dropped := (s.dropped + n) % 2 ^ s.params.dropW, responses := s.responses ++ rs, steps := s.steps + n }

/-- 30_encoding R72, R78: a command of the command port, written alone from `Idle`, ends with one response on that
port, the guard as it was; a TICK gives one on the tick port, from every state. -/
def Obligations.EveryCommandEndsWithOneResponse : Prop :=
  (∀ (i : Instr) (s : State), i ≠ .tick → s.fgState = .idle →
    ∃ t r, alone i s = .next t ∧ t.responses = s.responses ++ [r] ∧ r.port = .command ∧ t.fgState = .idle ∧
      t.lock = s.lock) ∧
  (∀ s : State, ∃ t r, exec .tick s = .next t ∧ t.responses = s.responses ++ [r] ∧ r.port = .tick ∧
    t.fgState = s.fgState ∧ t.lock = s.lock)

/-- `TICKS n` as steps of the machine: with TK named `n` times, `n` steps are `n` TICKs (30_encoding R79). -/
def Obligations.ScheduledTicksAreTicks : Prop :=
  ∀ (n : Nat) (s : State) (rest : List Agent), s.params.Valid → s.lock ≠ 3 →
    s.schedule = List.replicate n .tk ++ rest →
    Sys2Proof.core.run n s = ticks n { s with schedule := rest }

/-! ### Colour memory (20_memory) -/

/-- 20_memory R50, R53, R57: a store of FG changes one channel and nothing else. A position that does not exist is a
fault, THE MODEL'S CHOICE (log 23). -/
def Obligations.StoreWritesOneChannel : Prop :=
  ∀ (s : State) (k : Nat) (c : Channel) (v : Byte) (more : List FgAction) (rest : List Agent),
    s.params.Valid → s.lock ≠ 3 → s.schedule = .fg :: rest → s.program = .store k c v :: more →
    (k < 2 ^ s.params.aw →
      ∃ m, step s = .next { s with schedule := rest, program := more, memory := m, steps := s.steps + 1 } ∧
        m.read (s.params.base + 3 * k + c.index) = some v ∧
        (∀ x, x ≠ s.params.base + 3 * k + c.index → m.read x = s.memory.read x) ∧
        (s.memory.wf → m.wf)) ∧
    (2 ^ s.params.aw ≤ k → step s = .fault .noSuchPosition)

/-- 20_memory R65 in THE MODEL'S form (log 10): storage that FG gives up is valid no more, and nothing else changes. A
position that does not exist is a fault, THE MODEL'S CHOICE (log 23). -/
def Obligations.ReclaimGivesUpOnePosition : Prop :=
  ∀ (s : State) (k : Nat) (more : List FgAction) (rest : List Agent),
    s.params.Valid → s.lock ≠ 3 → s.schedule = .fg :: rest → s.program = .reclaim k :: more →
    (k < 2 ^ s.params.aw →
      ∃ m, step s = .next { s with schedule := rest, program := more, memory := m, steps := s.steps + 1 } ∧
        (∀ x, m.read x =
          if s.params.base + 3 * k ≤ x ∧ x < s.params.base + 3 * k + 3 then none else s.memory.read x) ∧
        (s.memory.wf → m.wf)) ∧
    (2 ^ s.params.aw ≤ k → step s = .fault .noSuchPosition)

/-- 20_memory R51, R52, R53, R55, R57: channel by channel, a read gives the stored byte, or a free draw, another one at
each read, where there is no valid storage (log 9). An element may be stored in part. -/
def Obligations.ReadColourIsStoredOrFree : Prop :=
  ∀ (s : State) (k : Nat),
    (∀ v, s.memory.read (s.params.base + 3 * k) = some v → (colourAt s k).r = v) ∧
    (∀ v, s.memory.read (s.params.base + 3 * k + 1) = some v → (colourAt s k).g = v) ∧
    (∀ v, s.memory.read (s.params.base + 3 * k + 2) = some v → (colourAt s k).b = v) ∧
    (s.memory.read (s.params.base + 3 * k) = none → (colourAt s k).r = Config.freeByte (3 * s.draws)) ∧
    (s.memory.read (s.params.base + 3 * k + 1) = none → (colourAt s k).g = Config.freeByte (3 * s.draws + 1)) ∧
    (s.memory.read (s.params.base + 3 * k + 2) = none → (colourAt s k).b = Config.freeByte (3 * s.draws + 2)) ∧
    noteRead k s = { s with readTrace := withRead s k, draws := s.draws + 1 }

/-- 20_memory R66, 41 R117: colour memory is read only by a TICK that completes a high phase with colours left, once,
at the new position, and the bit decoded is the one the codec gives. -/
def Obligations.ColourIsReadOnlyAtABitDecode : Prop :=
  ∀ (i : Instr) (s t : State), exec i s = .next t →
    (t.readTrace = s.readTrace ∧ t.draws = s.draws) ∨
    (i = .tick ∧ CompletesNow s ∧ t.readTrace = withRead s t.pos ∧ t.draws = s.draws + 1 ∧
      t.resetting = false ∧ t.level = false ∧ t.pos ≠ t.viewEnd ∧
      t.bitval = wireBit (colourAt s t.pos) t.bit)

/-! ### State as a whole (10_state) -/

/-- 70 R180, 10_state R22: power-on. The values are the spec's, which says of them that they are its own choice (D11). -/
def Obligations.PowerOnRegisterValues : Prop :=
  ∀ p : Params,
    let s := State.powerOn p
    s.configured = false ∧ s.pin = 0 ∧ s.tc.t0l = 0 ∧ s.tc.t0h = 0 ∧ s.tc.t1l = 0 ∧ s.tc.t1h = 0 ∧ s.tc.res = 0 ∧
    s.viewStart = 0 ∧ s.viewEnd = 0 ∧ s.resetting = true ∧ s.startPending = false ∧ s.level = false ∧
    s.pos = 2 ^ p.aw - 1 ∧ s.bit = 23 ∧ s.bitval = false ∧ s.counter = 0 ∧ s.target = 0 ∧ s.lock = 0 ∧
    s.dropped = 0 ∧ s.fgState = .idle ∧ s.pinTrace = [] ∧ ∀ q, wireLevel q s.pinTrace = none

/-- The invariant holds at power-on, at every parameter set that R9 and R71 allow, and at `State.reset`, which is
power-on at the model's default parameters (10_state R36, 70 R180; log 2). -/
def Obligations.PowerOnMeetsTheInvariant : Prop :=
  (∀ p : Params, p.Valid → Invariant (State.powerOn p)) ∧ State.reset = State.powerOn Params.default ∧
    Invariant State.reset

/-- 10_state R36 and the widths of R22: every step of either agent keeps the invariant. -/
def Obligations.EveryStepKeepsTheInvariant : Prop := ∀ s t : State, Invariant s → step s = .next t → Invariant t

/-- 70 R195, 60 R161: the block never halts. From a state that meets the invariant, with FG presenting the command in
flight and storing only to positions that exist, a step goes on, and so on for ever. -/
def Obligations.TheBlockNeverHalts : Prop :=
  ∀ s : State, Invariant s → PortAgrees s → StoresInRange s →
    ∃ t, step s = .next t ∧ Invariant t ∧ PortAgrees t ∧ StoresInRange t

/-- 10_state R22, the column "written by": which commands write which register. No command writes colour memory
(20_memory R50), and none writes the parameters or what the agents have yet to do. -/
def Obligations.RegistersHaveTheirWriters : Prop :=
  ∀ (i : Instr) (s t : State), exec i s = .next t →
    ((∀ a b, i ≠ .configure a b) → t.configured = s.configured ∧ t.pin = s.pin ∧ t.tc = s.tc) ∧
    ((∀ a b, i ≠ .feed a b) → t.viewStart = s.viewStart ∧ t.viewEnd = s.viewEnd) ∧
    (i ≠ .tick → isGuarded i = false →
      t.resetting = s.resetting ∧ t.level = s.level ∧ t.pos = s.pos ∧ t.bit = s.bit ∧ t.counter = s.counter ∧
        t.target = s.target ∧ t.pinTrace = s.pinTrace) ∧
    (i ≠ .tick → (∀ a b, i ≠ .start a b) → t.startPending = s.startPending) ∧
    (i ≠ .tick → t.bitval = s.bitval ∧ t.dropped = s.dropped) ∧
    (isGuarded i = false → t.lock = s.lock ∧ t.fgState = s.fgState) ∧
    (WritesNothing i = true → t = { s with responses := t.responses }) ∧
    t.memory = s.memory ∧ t.params = s.params ∧ t.program = s.program ∧ t.schedule = s.schedule ∧
      t.steps = s.steps

/-- 10_state R23, R25, 40 R100: whatever step is taken, the configuration changes only in the BODY of a CONFIGURE whose
calibration succeeds, which sets all of it; nothing clears `CONFIGURED`. -/
def Obligations.ConfigurationChangesOnlyByConfigure : Prop :=
  ∀ s t : State, step s = .next t →
    t.params = s.params ∧
    ((t.configured = s.configured ∧ t.pin = s.pin ∧ t.tc = s.tc) ∨
      ∃ a b c, s.fgState = .held .configure a b ∧ calibrate s.params (b.toNat % 2 ^ s.params.tpW) = some c ∧
        t.configured = true ∧ t.pin = a.toNat % 2 ^ s.params.pinW ∧ t.tc = c)

/-- 10_state R24, R30: every pin event of a command names the pin held at that moment, and with the last one `LEVEL`
is the level written; `LEVEL` does not change without one. -/
def Obligations.PinWritesFollowLevel : Prop :=
  ∀ (i : Instr) (s t : State), exec i s = .next t →
    ∃ evs, t.pinTrace = s.pinTrace ++ evs ∧
      (∀ e ∈ evs, e.step = s.steps ∧ (e.event = .mode t.pin ∨ ∃ l, e.event = .write t.pin l)) ∧
      (evs ≠ [] → evs.getLast? = some { step := s.steps, event := .write t.pin t.level }) ∧
      (t.level ≠ s.level → evs ≠ [])

/-! ### Calibrator and CONFIGURE (40) -/

/-- 40 R95, with R91 to R94: exactly when calibration gives counts, and which. -/
def Obligations.CalibrationIsExact : Prop :=
  ∀ (p : Params) (tp : Nat) (c : TickCounts),
    calibrate p tp = some c ↔
      0 < tp ∧ QuantisesTo p p.nomT0l tp c.t0l ∧ QuantisesTo p p.nomT0h tp c.t0h ∧
        QuantisesTo p p.nomT1l tp c.t1l ∧ QuantisesTo p p.nomT1h tp c.t1h ∧
        c.res = (p.nomRes + tp - 1) / tp ∧
        c.t0l ≤ 2 ^ p.cntW - 2 ∧ c.t0h ≤ 2 ^ p.cntW - 2 ∧ c.t1l ≤ 2 ^ p.cntW - 2 ∧ c.t1h ≤ 2 ^ p.cntW - 2 ∧
        c.res ≤ 2 ^ p.cntW - 2

/-- 40 R96: soundness of the counts, success when every symbol and the count range allow it, failure where a data symbol
does not quantise. -/
def Obligations.CalibrationProperties : Prop :=
  (∀ (p : Params) (tp : Nat) (c : TickCounts), calibrate p tp = some c →
    WithinTolerance p (c.t0l * tp) p.nomT0l ∧ WithinTolerance p (c.t0h * tp) p.nomT0h ∧
    WithinTolerance p (c.t1l * tp) p.nomT1l ∧ WithinTolerance p (c.t1h * tp) p.nomT1h ∧
    p.nomRes ≤ c.res * tp ∧ c.res * tp < p.nomRes + tp) ∧
  (∀ (p : Params) (tp k0l k0h k1l k1h : Nat), 0 < tp →
    QuantisesTo p p.nomT0l tp k0l → QuantisesTo p p.nomT0h tp k0h →
    QuantisesTo p p.nomT1l tp k1l → QuantisesTo p p.nomT1h tp k1h →
    k0l ≤ p.cntMax → k0h ≤ p.cntMax → k1l ≤ p.cntMax → k1h ≤ p.cntMax →
    (p.nomRes + tp - 1) / tp ≤ p.cntMax → ∃ c, calibrate p tp = some c) ∧
  (∀ (p : Params) (tp d : Nat), d = p.nomT0l ∨ d = p.nomT0h ∨ d = p.nomT1l ∨ d = p.nomT1h →
    (∀ k, ¬ QuantisesTo p d tp k) → calibrate p tp = none)

/-- 70 R193's tick counts and those of 95_test_vectors C6, C11, C12, C16 to C18, at the default parameters (which are
general knowledge, 93 G1; log 2). -/
def Obligations.DefaultTickCounts : Prop :=
  calibrate Params.default 50000 = some { t0l := 17, t0h := 8, t1l := 9, t1h := 16, res := 1000 } ∧
  calibrate Params.default 250000 = some { t0l := 3, t0h := 1, t1l := 2, t1h := 3, res := 200 } ∧
  calibrate Params.default 300000 = some { t0l := 3, t0h := 1, t1l := 1, t1h := 3, res := 167 } ∧
  calibrate Params.default 350000 = some { t0l := 2, t0h := 1, t1l := 1, t1h := 2, res := 143 } ∧
  calibrate Params.default 400000 = some { t0l := 2, t0h := 1, t1l := 1, t1h := 2, res := 125 } ∧
  calibrate Params.default 450000 = some { t0l := 2, t0h := 1, t1l := 1, t1h := 2, res := 112 } ∧
  calibrate Params.default 763 = some { t0l := 1114, t0h := 524, t1l := 589, t1h := 1048, res := 65531 } ∧
  calibrate Params.default 500000 = none ∧ calibrate Params.default 762 = none ∧
  calibrate Params.default 1 = none ∧ calibrate Params.default 0 = none

/-- 40 R97, R98: the BODY of CONFIGURE, on success and on failure. -/
def Obligations.ConfigureBody : Prop :=
  ∀ (s : State) (a b : Data), s.fgState = .held .configure a b →
    (∀ c, calibrate s.params (b.toNat % 2 ^ s.params.tpW) = some c →
      exec (.configure a b) s =
        .next { s with
          tc := c, pin := a.toNat % 2 ^ s.params.pinW, configured := true, resetting := true,
          pos := (s.viewStart + 2 ^ s.params.aw - 1) % 2 ^ s.params.aw, bit := 23, level := false,
          counter := 1, target := c.res, fgState := .done .ok 0 0,
          pinTrace := s.pinTrace ++
            [{ step := s.steps, event := .mode (a.toNat % 2 ^ s.params.pinW) },
              { step := s.steps, event := .write (a.toNat % 2 ^ s.params.pinW) false }] }) ∧
    (calibrate s.params (b.toNat % 2 ^ s.params.tpW) = none →
      exec (.configure a b) s = .next { s with fgState := .done .fail 0 0 })

/-- 40 R97, R98, R99, 70 R190: every pin event of a whole CONFIGURE is a mode or a low write of the new pin, so the wire
level of every other pin stays; on success the new one is low, on failure there is no event. -/
def Obligations.ConfigureLeavesTheOldPin : Prop :=
  ∀ (s : State) (a b : Data), s.fgState = .idle →
    ∃ t evs, alone (.configure a b) s = .next t ∧ t.pinTrace = s.pinTrace ++ evs ∧
      (∀ e ∈ evs, e.event = .mode (a.toNat % 2 ^ s.params.pinW) ∨
        e.event = .write (a.toNat % 2 ^ s.params.pinW) false) ∧
      (∀ p, p ≠ a.toNat % 2 ^ s.params.pinW → wireLevel p t.pinTrace = wireLevel p s.pinTrace) ∧
      (calibrate s.params (b.toNat % 2 ^ s.params.tpW) ≠ none →
        wireLevel (a.toNat % 2 ^ s.params.pinW) t.pinTrace = some false) ∧
      (calibrate s.params (b.toNat % 2 ^ s.params.tpW) = none → evs = [])

/-! ### Codec and TICK (41) -/

/-- 41 R105, R106: green, red, blue, most significant bit first, with the rule's example. -/
def Obligations.CodecSendsGreenRedBlue : Prop :=
  (∀ c : Colour, (wireWord c).toNat = c.g.toNat * 2 ^ 16 + c.r.toNat * 2 ^ 8 + c.b.toNat) ∧
  (∀ (c : Colour) (j : Nat), j < 8 →
    wireBit c j = c.g.getLsbD (7 - j) ∧ wireBit c (8 + j) = c.r.getLsbD (7 - j) ∧
      wireBit c (16 + j) = c.b.getLsbD (7 - j)) ∧
  wireWord { r := 0x01, g := 0x02, b := 0x03 } = 0x020103 ∧
  (List.range 24).map (wireBit { r := 0x01, g := 0x02, b := 0x03 }) =
    [false, false, false, false, false, false, true, false, false, false, false, false,
      false, false, false, true, false, false, false, false, false, false, true, true]

/-- 41 R110: an unconfigured tick. -/
def Obligations.UnconfiguredTickHasNoEffect : Prop :=
  ∀ s : State, s.lock = 0 → s.configured = false →
    exec .tick s = .next { s with responses := withResponse s .tick .ok 0 0 }

/-- 41 R111, R112: a counted tick counts, and completes exactly when the incremented counter is at least the target;
every completion leaves `COUNTER = 0`. That it counts also in the reset hold, against the words of 60 R171, is THE MODEL'S
CHOICE (log 27). -/
def Obligations.CountedTickCountsOrCompletes : Prop :=
  ∀ s : State, s.lock = 0 → s.configured = true →
    (s.counter + 1 < s.target →
      exec .tick s =
        .next { s with counter := s.counter + 1, responses := withResponse s .tick .ok 0 0 }) ∧
    (s.target ≤ s.counter + 1 → ∃ t, exec .tick s = .next t ∧ t.counter = 0)

/-- 41 R113: a completion while Resetting: the hold restarts; or the transition, with the first low phase of the first
bit (the MSB of green) in the same TICK; or, on an empty view, the end of the buffer in the same TICK. That the hold
restarts its count, against the words of 60 R171, is THE MODEL'S CHOICE (log 27). -/
def Obligations.CompletionWhileResetting : Prop :=
  ∀ s : State, CompletesNow s → s.resetting = true → s.viewStart < 2 ^ s.params.aw →
    (s.startPending = false →
      exec .tick s =
        .next { s with counter := 0, target := s.tc.res, responses := withResponse s .tick .ok 0 0 }) ∧
    (s.startPending = true → s.viewStart ≠ s.viewEnd →
      exec .tick s =
        .next { s with
          startPending := false, resetting := false, pos := s.viewStart, bit := 0,
          bitval := (colourAt s s.viewStart).g.getLsbD 7, level := false, counter := 0,
          target := if (colourAt s s.viewStart).g.getLsbD 7 then s.tc.t1l else s.tc.t0l,
          pinTrace := withPinWrite s s.pin false, readTrace := withRead s s.viewStart, draws := s.draws + 1,
          responses := withResponse s .tick .ok 0 0 }) ∧
    (s.startPending = true → s.viewStart = s.viewEnd →
      exec .tick s =
        .next { s with
          startPending := false, pos := (s.viewStart + 2 ^ s.params.aw - 1) % 2 ^ s.params.aw, bit := 23,
          level := false, counter := 0, target := s.tc.res, pinTrace := withPinWrite s s.pin false,
          responses := withResponse s .tick .finished 0 0 })

/-- 41 R114: the low phase is complete. -/
def Obligations.LowPhaseCompletionGoesHigh : Prop :=
  ∀ s : State, CompletesNow s → s.resetting = false → s.level = false →
    exec .tick s =
      .next { s with
        level := true, counter := 0, target := if s.bitval then s.tc.t1h else s.tc.t0h,
        pinTrace := withPinWrite s s.pin true, responses := withResponse s .tick .ok 0 0 }

/-- 41 R115, R117: the high phase is complete and a bit is left: the cursor advances, the bit is decoded, its low phase
starts. -/
def Obligations.HighPhaseCompletionStartsTheNextBit : Prop :=
  ∀ s : State, CompletesNow s → s.resetting = false → s.level = true → advancedPos s ≠ s.viewEnd →
    exec .tick s =
      .next { s with
        pos := advancedPos s, bit := advancedBit s,
        bitval := wireBit (colourAt s (advancedPos s)) (advancedBit s), level := false, counter := 0,
        target := if wireBit (colourAt s (advancedPos s)) (advancedBit s) then s.tc.t1l else s.tc.t0l,
        pinTrace := withPinWrite s s.pin false, readTrace := withRead s (advancedPos s), draws := s.draws + 1,
        responses := withResponse s .tick .ok 0 0 }

/-- 41 R116: the end of the buffer, after the last bit of a frame or, with an empty view, in the TICK of the transition;
and no other TICK responds FINISHED. A START that came during the frame is lost (70 R186). -/
def Obligations.EndOfBufferFinishes : Prop :=
  ∀ s : State, s.viewStart < 2 ^ s.params.aw →
    (EndsBufferNow s →
      exec .tick s =
        .next { s with
          resetting := true, startPending := false, level := false,
          pos := (s.viewStart + 2 ^ s.params.aw - 1) % 2 ^ s.params.aw, bit := 23, counter := 0, target := s.tc.res,
          pinTrace := withPinWrite s s.pin false, responses := withResponse s .tick .finished 0 0 }) ∧
    ∀ t, exec .tick s = .next t → t.responses = withResponse s .tick .finished 0 0 → EndsBufferNow s

/-- 41 R118: what one TICK does at most. It always goes on (60 R161). -/
def Obligations.TickIsBounded : Prop :=
  ∀ s : State, ∃ t r evs reads, exec .tick s = .next t ∧ t.responses = s.responses ++ [r] ∧
    (r.code = .ok ∨ r.code = .finished ∨ r.code = .locked) ∧
    t.pinTrace = s.pinTrace ++ evs ∧ evs.length ≤ 1 ∧ t.readTrace = s.readTrace ++ reads ∧ reads.length ≤ 1

/-- 41 R119, first two items: a symbol with `COUNTER = c` and `TARGET = T` completes on the `max(1, T - c)`-th counted
tick, and until then the ticks only count; in the reset hold too, against the words of 60 R171, which is THE MODEL'S
CHOICE (log 27). -/
def Obligations.SymbolLastsItsTicks : Prop :=
  ∀ s : State, s.lock = 0 → s.configured = true →
    (∀ n, n < max 1 (s.target - s.counter) →
      ∃ rs, TickResponses n .ok rs ∧
        ticks n s =
          .next { s with counter := s.counter + n, responses := s.responses ++ rs, steps := s.steps + n }) ∧
    ∃ t, ticks (max 1 (s.target - s.counter)) s = .next t ∧ t.counter = 0

/-- 41 R119, R122, 20_memory R66: a whole frame, for a view of any size whose storage is valid, with TICKs only: the
instants and levels of all its pin writes, `48N + 1` in number, the reads, one FINISHED on the last tick and none
before, and the state it leaves. -/
def Obligations.FrameIsSentBitByBit : Prop :=
  ∀ s : State, CompletesNow s → s.resetting = true → s.startPending = true →
    s.viewStart < 2 ^ s.params.aw → s.viewEnd < 2 ^ s.params.aw →
    (∀ k ∈ viewPositions s, ∀ c, (s.memory.read (cellAddress s.params k c)).isSome = true) →
    ∃ t oks, ticks (1 + frameTicks s.tc (frameBits s)) s = .next t ∧
      t.pinTrace = s.pinTrace ++ frameWrites s.pin s.tc s.steps (frameBits s) ∧
      (frameWrites s.pin s.tc s.steps (frameBits s)).length = 48 * viewSize s + 1 ∧
      t.readTrace.map ReadEntry.k =
        s.readTrace.map ReadEntry.k ++ (viewPositions s).flatMap (List.replicate 24) ∧
      TickResponses (frameTicks s.tc (frameBits s)) .ok oks ∧
      t.responses =
        s.responses ++ oks ++
          [{ step := s.steps + frameTicks s.tc (frameBits s), port := .tick, code := .finished, d0 := 0, d1 := 0 }] ∧
      t.resetting = true ∧ t.startPending = false ∧ t.level = false ∧ t.counter = 0 ∧ t.target = s.tc.res ∧
      t.pos = previousPosition s.params s.viewStart ∧ t.bit = 23 ∧
      t.configured = true ∧ t.pin = s.pin ∧ t.tc = s.tc ∧ t.viewStart = s.viewStart ∧ t.viewEnd = s.viewEnd ∧
      t.lock = 0 ∧ t.dropped = s.dropped ∧ t.memory = s.memory

/-! ### FEED and START (41) -/

/-- 41 R120: the BODY of FEED while Resetting, while Transmitting and high, while Transmitting and low. The previous
view is the answer; `START_PENDING` is kept. (`AW <= 32`, 30_encoding R71, so each position fits its data word.) -/
def Obligations.FeedBody : Prop :=
  ∀ (s : State) (a b : Data), s.fgState = .held .feed a b → s.params.aw ≤ 32 →
    (s.resetting = true →
      exec (.feed a b) s =
        .next { s with
          viewStart := a.toNat % 2 ^ s.params.aw, viewEnd := b.toNat % 2 ^ s.params.aw,
          pos := (a.toNat % 2 ^ s.params.aw + 2 ^ s.params.aw - 1) % 2 ^ s.params.aw, bit := 23,
          fgState := .done .ok (BitVec.ofNat 32 s.viewStart) (BitVec.ofNat 32 s.viewEnd) }) ∧
    (s.resetting = false → s.level = true →
      exec (.feed a b) s =
        .next { s with
          viewStart := a.toNat % 2 ^ s.params.aw, viewEnd := b.toNat % 2 ^ s.params.aw,
          pos := (a.toNat % 2 ^ s.params.aw + 2 ^ s.params.aw - 1) % 2 ^ s.params.aw, bit := 23,
          resetting := true, level := false, counter := 1, target := s.tc.res,
          pinTrace := withPinWrite s s.pin false,
          fgState := .done .ok (BitVec.ofNat 32 s.viewStart) (BitVec.ofNat 32 s.viewEnd) }) ∧
    (s.resetting = false → s.level = false →
      exec (.feed a b) s =
        .next { s with
          viewStart := a.toNat % 2 ^ s.params.aw, viewEnd := b.toNat % 2 ^ s.params.aw,
          pos := (a.toNat % 2 ^ s.params.aw + 2 ^ s.params.aw - 1) % 2 ^ s.params.aw, bit := 23,
          resetting := true, target := s.tc.res,
          fgState := .done .ok (BitVec.ofNat 32 s.viewStart) (BitVec.ofNat 32 s.viewEnd) })

/-- 41 R121: after FEED's BODY the block is Resetting on the new view. From a Resetting state, a TICK reads the start of
the view or stays Resetting on the same view without a read; and so does every step of either agent, but that the BODY of
another FEED, which reads nothing, puts its own view in the place. So the next read, whenever it comes, is at the start of
the view that the last FEED gave. -/
def Obligations.PreviousViewIsNeverReadAgain : Prop :=
  (∀ (s t : State) (a b : Data), s.fgState = .held .feed a b → exec (.feed a b) s = .next t →
    t.resetting = true ∧ t.viewStart = a.toNat % 2 ^ s.params.aw ∧ t.viewEnd = b.toNat % 2 ^ s.params.aw) ∧
  (∀ s t : State, s.resetting = true → s.viewStart < 2 ^ s.params.aw → exec .tick s = .next t →
    (t.readTrace = s.readTrace ∧ t.resetting = true ∧ t.viewStart = s.viewStart ∧ t.viewEnd = s.viewEnd) ∨
      t.readTrace = withRead s s.viewStart) ∧
  (∀ s t : State, s.resetting = true → s.viewStart < 2 ^ s.params.aw → step s = .next t →
    (t.readTrace = s.readTrace ∧ t.resetting = true ∧ t.params = s.params ∧
      ((t.viewStart = s.viewStart ∧ t.viewEnd = s.viewEnd) ∨
        ∃ a b, s.fgState = .held .feed a b ∧ t.viewStart = a.toNat % 2 ^ s.params.aw ∧
          t.viewEnd = b.toNat % 2 ^ s.params.aw)) ∨
      t.readTrace = withRead s s.viewStart)

/-- 41 R124: START sets the flag and nothing else. -/
def Obligations.StartSetsPending : Prop :=
  ∀ (s : State) (a b : Data), s.fgState = .idle →
    exec (.start a b) s =
      .next { s with startPending := true, responses := withResponse s .command .ok 0 0 }

/-! ### ASYNC_RESET (42) -/

/-- 42 R130 to R134: the BODY of ASYNC_RESET while Resetting, while high, while low. -/
def Obligations.AsyncResetBody : Prop :=
  ∀ (s : State) (a b : Data), s.fgState = .held .asyncReset a b →
    (s.resetting = true → exec (.asyncReset a b) s = .next { s with fgState := .done .ok 0 0 }) ∧
    (s.resetting = false → s.level = true →
      exec (.asyncReset a b) s =
        .next { s with
          resetting := true, pos := (s.viewStart + 2 ^ s.params.aw - 1) % 2 ^ s.params.aw, bit := 23,
          level := false, counter := 1, target := s.tc.res, pinTrace := withPinWrite s s.pin false,
          fgState := .done .ok 0 0 }) ∧
    (s.resetting = false → s.level = false →
      exec (.asyncReset a b) s =
        .next { s with
          resetting := true, pos := (s.viewStart + 2 ^ s.params.aw - 1) % 2 ^ s.params.aw, bit := 23,
          target := s.tc.res, fgState := .done .ok 0 0 })

/-- 42 R135: two ASYNC_RESETs in a row while low issue no pin event, and the second is a no-op but for its response. -/
def Obligations.AsyncResetIsIdempotentWhileLow : Prop :=
  ∀ (s : State) (a b a' b' : Data), s.fgState = .idle → s.level = false →
    ∃ t u, alone (.asyncReset a b) s = .next t ∧ alone (.asyncReset a' b') t = .next u ∧
      t.pinTrace = s.pinTrace ∧ u = { t with responses := withResponse t .command .ok 0 0 }

/-- 42 R136: ASYNC_RESET while high: one low write, and the reset symbol completes on the `max(1, TC_RES - 1)`-th
counted tick after the call. -/
def Obligations.AsyncResetWhileHighTimesTheReset : Prop :=
  ∀ (s : State) (a b : Data), s.fgState = .idle → s.lock = 0 → s.configured = true → s.resetting = false →
    s.level = true →
    ∃ t, alone (.asyncReset a b) s = .next t ∧ t.pinTrace = withPinWrite s s.pin false ∧ t.resetting = true ∧
      t.level = false ∧ t.counter = 1 ∧ t.target = s.tc.res ∧
      (∀ n, n < max 1 (s.tc.res - 1) →
        ∃ u, ticks n t = .next u ∧ u.counter = 1 + n ∧ u.resetting = true ∧ u.pinTrace = t.pinTrace) ∧
      ∃ u, ticks (max 1 (s.tc.res - 1)) t = .next u ∧ u.counter = 0

/-- 42 R137: ASYNC_RESET while low with `COUNTER = c`: no pin event, and the reset symbol completes on the
`max(1, TC_RES - c)`-th counted tick after the call. -/
def Obligations.AsyncResetWhileLowKeepsElapsedTime : Prop :=
  ∀ (s : State) (a b : Data), s.fgState = .idle → s.lock = 0 → s.configured = true → s.resetting = false →
    s.level = false →
    ∃ t, alone (.asyncReset a b) s = .next t ∧ t.pinTrace = s.pinTrace ∧ t.resetting = true ∧
      t.counter = s.counter ∧ t.target = s.tc.res ∧
      (∀ n, n < max 1 (s.tc.res - s.counter) →
        ∃ u, ticks n t = .next u ∧ u.counter = s.counter + n ∧ u.resetting = true ∧ u.pinTrace = s.pinTrace) ∧
      ∃ u, ticks (max 1 (s.tc.res - s.counter)) t = .next u ∧ u.counter = 0

/-- 70 R182: a whole ASYNC_RESET changes only the mode, the cursor and the timer (and gives its response and pin
event). -/
def Obligations.AsyncResetKeepsTheRest : Prop :=
  ∀ (s : State) (a b : Data), s.fgState = .idle →
    ∃ t, alone (.asyncReset a b) s = .next t ∧
      t =
        { s with
          resetting := t.resetting, level := t.level, pos := t.pos, bit := t.bit, counter := t.counter,
          target := t.target, pinTrace := t.pinTrace, responses := withResponse s .command .ok 0 0 } ∧
      t.resetting = true

/-! ### Accessors (43) -/

/-- 43 R140 to R146, R149: the accessors of one register. THE MODEL'S CHOICE in two places: the data word of a register
value of more than 32 bits is a free value, and the command completes (log 13); and GET_DROPPED gives `DROPPED` as it is
also before the first successful CONFIGURE, against the last sentence of R140 (log 26). -/
def Obligations.RegisterAccessorsRespond : Prop :=
  ∀ (s : State) (a b : Data), s.fgState = .idle →
    (∃ d, Reports s.params.pinW s.pin d ∧
      exec (.getPin a b) s = .next { s with responses := withResponse s .command .ok d 0 }) ∧
    (∃ d, Reports s.params.cntW s.tc.t0l d ∧
      exec (.getT0l a b) s = .next { s with responses := withResponse s .command .ok d 0 }) ∧
    (∃ d, Reports s.params.cntW s.tc.t0h d ∧
      exec (.getT0h a b) s = .next { s with responses := withResponse s .command .ok d 0 }) ∧
    (∃ d, Reports s.params.cntW s.tc.t1l d ∧
      exec (.getT1l a b) s = .next { s with responses := withResponse s .command .ok d 0 }) ∧
    (∃ d, Reports s.params.cntW s.tc.t1h d ∧
      exec (.getT1h a b) s = .next { s with responses := withResponse s .command .ok d 0 }) ∧
    (∃ d, Reports s.params.cntW s.tc.res d ∧
      exec (.getTres a b) s = .next { s with responses := withResponse s .command .ok d 0 }) ∧
    (∃ d, Reports s.params.dropW s.dropped d ∧
      exec (.getDropped a b) s = .next { s with responses := withResponse s .command .ok d 0 })

/-- 43 R147: the status word, bit by bit. That it packs the flags as they are also before the first successful CONFIGURE,
against the last sentence of R140, is THE MODEL'S CHOICE (log 26). -/
def Obligations.StatusWordPacksTheFlags : Prop :=
  ∀ (s : State) (a b : Data), s.fgState = .idle →
    ∃ d : Data, exec (.getStatus a b) s = .next { s with responses := withResponse s .command .ok d 0 } ∧
      d.getLsbD 0 = s.resetting ∧ d.getLsbD 1 = s.startPending ∧ d.getLsbD 2 = s.level ∧
      d.getLsbD 3 = s.configured ∧ ∀ j, 4 ≤ j → d.getLsbD j = false

/-- 43 R148: the counter and the target, together. The data word of a value of more than 32 bits is a free value, THE
MODEL'S CHOICE (log 13). -/
def Obligations.TimerAccessorResponds : Prop :=
  ∀ (s : State) (a b : Data), s.fgState = .idle →
    ∃ d e : Data, Reports s.params.cntW s.counter d ∧ Reports s.params.cntW s.target e ∧
      exec (.getTimer a b) s = .next { s with responses := withResponse s .command .ok d e }

/-! ### The host (60) and the accessors before CONFIGURE (43) -/

/-- 60 R172, "write any position at any time": FG stores, and gives storage up, also between ACQUIRE and RELEASE of its own
command, which stays on its port; outside a window its turn on colour memory is FG's turn. THE MODEL'S CHOICE is the form of
that turn (log 25), giving storage up (log 10), and the fault at a position that does not exist (log 23). -/
def Obligations.StoreInsideAGuardedWindow : Prop :=
  ∀ (s : State) (rest : List Agent), s.params.Valid → s.lock ≠ 3 → s.schedule = .fgMemory :: rest →
    (∀ (cw : CommandWord) (k : Nat) (c : Channel) (v : Byte) (more : List FgAction), s.fgState ≠ .idle →
      s.program = .command cw :: .store k c v :: more →
      (k < 2 ^ s.params.aw →
        ∃ m, step s =
            .next { s with schedule := rest, program := .command cw :: more, memory := m, steps := s.steps + 1 } ∧
          m.read (s.params.base + 3 * k + c.index) = some v ∧
          (∀ x, x ≠ s.params.base + 3 * k + c.index → m.read x = s.memory.read x)) ∧
      (2 ^ s.params.aw ≤ k → step s = .fault .noSuchPosition)) ∧
    (∀ (cw : CommandWord) (k : Nat) (more : List FgAction), s.fgState ≠ .idle →
      s.program = .command cw :: .reclaim k :: more →
      (k < 2 ^ s.params.aw →
        ∃ m, step s =
            .next { s with schedule := rest, program := .command cw :: more, memory := m, steps := s.steps + 1 } ∧
          ∀ x, m.read x =
            if s.params.base + 3 * k ≤ x ∧ x < s.params.base + 3 * k + 3 then none else s.memory.read x) ∧
      (2 ^ s.params.aw ≤ k → step s = .fault .noSuchPosition)) ∧
    (∀ (act : FgAction) (more : List FgAction), s.fgState = .idle → s.program = act :: more →
      (∀ cw, act ≠ .command cw) → step s = step { s with schedule := .fg :: rest })

/-- 43 R140's last sentence and the corner cases of R141 to R148, at every parameter set, from a state that meets the
invariant: before the first successful CONFIGURE every accessor gives the reset value, but that GET_STATUS gives `0x3`
after a START, and nothing is said here of GET_DROPPED unless `DROPPED = 0`; GET_TRES gives at least 1 after one. Those two
follow the registers, against the last sentence of R140: THE MODEL'S CHOICE (log 26). GET_TRES's free word for a value of
more than 32 bits is not 0 (log 13). -/
def Obligations.AccessorsBeforeAndAfterConfigure : Prop :=
  ∀ (s : State) (a b : Data), Invariant s → s.fgState = .idle →
    (s.configured = false →
      RespondsZero (.getPin a b) s ∧ RespondsZero (.getT0l a b) s ∧ RespondsZero (.getT0h a b) s ∧
      RespondsZero (.getT1l a b) s ∧ RespondsZero (.getT1h a b) s ∧ RespondsZero (.getTres a b) s ∧
      RespondsZero (.getTimer a b) s ∧ (s.dropped = 0 → RespondsZero (.getDropped a b) s) ∧
      exec (.getStatus a b) s =
        .next { s with responses := withResponse s .command .ok (if s.startPending then 3 else 1) 0 }) ∧
    (s.configured = true →
      ∃ d, exec (.getTres a b) s = .next { s with responses := withResponse s .command .ok d 0 } ∧ d ≠ 0)
end

