-- ==== Sys2Proof/Laws/State.lean ====
section
/-! SUPPORT. What each primitive update of State does to each field. -/

namespace Sys2Proof.Machine

variable (s : State) (e : PinEvent) (l : Bool) (q : Port) (r : Answer) (k : Nat) (op : GuardedOp) (a b : Data)

@[simp] theorem pinEvent_params : (pinEvent e s).params = s.params := rfl
@[simp] theorem pinEvent_configured : (pinEvent e s).configured = s.configured := rfl
@[simp] theorem pinEvent_pin : (pinEvent e s).pin = s.pin := rfl
@[simp] theorem pinEvent_tc : (pinEvent e s).tc = s.tc := rfl
@[simp] theorem pinEvent_viewStart : (pinEvent e s).viewStart = s.viewStart := rfl
@[simp] theorem pinEvent_viewEnd : (pinEvent e s).viewEnd = s.viewEnd := rfl
@[simp] theorem pinEvent_resetting : (pinEvent e s).resetting = s.resetting := rfl
@[simp] theorem pinEvent_startPending : (pinEvent e s).startPending = s.startPending := rfl
@[simp] theorem pinEvent_level : (pinEvent e s).level = s.level := rfl
@[simp] theorem pinEvent_pos : (pinEvent e s).pos = s.pos := rfl
@[simp] theorem pinEvent_bit : (pinEvent e s).bit = s.bit := rfl
@[simp] theorem pinEvent_bitval : (pinEvent e s).bitval = s.bitval := rfl
@[simp] theorem pinEvent_counter : (pinEvent e s).counter = s.counter := rfl
@[simp] theorem pinEvent_target : (pinEvent e s).target = s.target := rfl
@[simp] theorem pinEvent_lock : (pinEvent e s).lock = s.lock := rfl
@[simp] theorem pinEvent_dropped : (pinEvent e s).dropped = s.dropped := rfl
@[simp] theorem pinEvent_fgState : (pinEvent e s).fgState = s.fgState := rfl
@[simp] theorem pinEvent_memory : (pinEvent e s).memory = s.memory := rfl
@[simp] theorem pinEvent_program : (pinEvent e s).program = s.program := rfl
@[simp] theorem pinEvent_schedule : (pinEvent e s).schedule = s.schedule := rfl
@[simp] theorem pinEvent_pinTrace : (pinEvent e s).pinTrace = s.pinTrace ++ [{ step := s.steps, event := e }] := rfl
@[simp] theorem pinEvent_responses : (pinEvent e s).responses = s.responses := rfl
@[simp] theorem pinEvent_readTrace : (pinEvent e s).readTrace = s.readTrace := rfl
@[simp] theorem pinEvent_draws : (pinEvent e s).draws = s.draws := rfl
@[simp] theorem pinEvent_steps : (pinEvent e s).steps = s.steps := rfl

@[simp] theorem drive_params : (drive l s).params = s.params := rfl
@[simp] theorem drive_configured : (drive l s).configured = s.configured := rfl
@[simp] theorem drive_pin : (drive l s).pin = s.pin := rfl
@[simp] theorem drive_tc : (drive l s).tc = s.tc := rfl
@[simp] theorem drive_viewStart : (drive l s).viewStart = s.viewStart := rfl
@[simp] theorem drive_viewEnd : (drive l s).viewEnd = s.viewEnd := rfl
@[simp] theorem drive_resetting : (drive l s).resetting = s.resetting := rfl
@[simp] theorem drive_startPending : (drive l s).startPending = s.startPending := rfl
@[simp] theorem drive_level : (drive l s).level = l := rfl
@[simp] theorem drive_pos : (drive l s).pos = s.pos := rfl
@[simp] theorem drive_bit : (drive l s).bit = s.bit := rfl
@[simp] theorem drive_bitval : (drive l s).bitval = s.bitval := rfl
@[simp] theorem drive_counter : (drive l s).counter = s.counter := rfl
@[simp] theorem drive_target : (drive l s).target = s.target := rfl
@[simp] theorem drive_lock : (drive l s).lock = s.lock := rfl
@[simp] theorem drive_dropped : (drive l s).dropped = s.dropped := rfl
@[simp] theorem drive_fgState : (drive l s).fgState = s.fgState := rfl
@[simp] theorem drive_memory : (drive l s).memory = s.memory := rfl
@[simp] theorem drive_program : (drive l s).program = s.program := rfl
@[simp] theorem drive_schedule : (drive l s).schedule = s.schedule := rfl
@[simp] theorem drive_pinTrace :
    (drive l s).pinTrace = s.pinTrace ++ [{ step := s.steps, event := .write s.pin l }] := rfl
@[simp] theorem drive_responses : (drive l s).responses = s.responses := rfl
@[simp] theorem drive_readTrace : (drive l s).readTrace = s.readTrace := rfl
@[simp] theorem drive_draws : (drive l s).draws = s.draws := rfl
@[simp] theorem drive_steps : (drive l s).steps = s.steps := rfl

@[simp] theorem respond_params : (respond q r s).params = s.params := rfl
@[simp] theorem respond_configured : (respond q r s).configured = s.configured := rfl
@[simp] theorem respond_pin : (respond q r s).pin = s.pin := rfl
@[simp] theorem respond_tc : (respond q r s).tc = s.tc := rfl
@[simp] theorem respond_viewStart : (respond q r s).viewStart = s.viewStart := rfl
@[simp] theorem respond_viewEnd : (respond q r s).viewEnd = s.viewEnd := rfl
@[simp] theorem respond_resetting : (respond q r s).resetting = s.resetting := rfl
@[simp] theorem respond_startPending : (respond q r s).startPending = s.startPending := rfl
@[simp] theorem respond_level : (respond q r s).level = s.level := rfl
@[simp] theorem respond_pos : (respond q r s).pos = s.pos := rfl
@[simp] theorem respond_bit : (respond q r s).bit = s.bit := rfl
@[simp] theorem respond_bitval : (respond q r s).bitval = s.bitval := rfl
@[simp] theorem respond_counter : (respond q r s).counter = s.counter := rfl
@[simp] theorem respond_target : (respond q r s).target = s.target := rfl
@[simp] theorem respond_lock : (respond q r s).lock = s.lock := rfl
@[simp] theorem respond_dropped : (respond q r s).dropped = s.dropped := rfl
@[simp] theorem respond_fgState : (respond q r s).fgState = s.fgState := rfl
@[simp] theorem respond_memory : (respond q r s).memory = s.memory := rfl
@[simp] theorem respond_program : (respond q r s).program = s.program := rfl
@[simp] theorem respond_schedule : (respond q r s).schedule = s.schedule := rfl
@[simp] theorem respond_pinTrace : (respond q r s).pinTrace = s.pinTrace := rfl
@[simp] theorem respond_responses :
    (respond q r s).responses = s.responses ++ [{ step := s.steps, port := q, code := r.code, d0 := r.d0, d1 := r.d1 }] := rfl
@[simp] theorem respond_readTrace : (respond q r s).readTrace = s.readTrace := rfl
@[simp] theorem respond_draws : (respond q r s).draws = s.draws := rfl
@[simp] theorem respond_steps : (respond q r s).steps = s.steps := rfl

@[simp] theorem noteRead_params : (noteRead k s).params = s.params := rfl
@[simp] theorem noteRead_configured : (noteRead k s).configured = s.configured := rfl
@[simp] theorem noteRead_pin : (noteRead k s).pin = s.pin := rfl
@[simp] theorem noteRead_tc : (noteRead k s).tc = s.tc := rfl
@[simp] theorem noteRead_viewStart : (noteRead k s).viewStart = s.viewStart := rfl
@[simp] theorem noteRead_viewEnd : (noteRead k s).viewEnd = s.viewEnd := rfl
@[simp] theorem noteRead_resetting : (noteRead k s).resetting = s.resetting := rfl
@[simp] theorem noteRead_startPending : (noteRead k s).startPending = s.startPending := rfl
@[simp] theorem noteRead_level : (noteRead k s).level = s.level := rfl
@[simp] theorem noteRead_pos : (noteRead k s).pos = s.pos := rfl
@[simp] theorem noteRead_bit : (noteRead k s).bit = s.bit := rfl
@[simp] theorem noteRead_bitval : (noteRead k s).bitval = s.bitval := rfl
@[simp] theorem noteRead_counter : (noteRead k s).counter = s.counter := rfl
@[simp] theorem noteRead_target : (noteRead k s).target = s.target := rfl
@[simp] theorem noteRead_lock : (noteRead k s).lock = s.lock := rfl
@[simp] theorem noteRead_dropped : (noteRead k s).dropped = s.dropped := rfl
@[simp] theorem noteRead_fgState : (noteRead k s).fgState = s.fgState := rfl
@[simp] theorem noteRead_memory : (noteRead k s).memory = s.memory := rfl
@[simp] theorem noteRead_program : (noteRead k s).program = s.program := rfl
@[simp] theorem noteRead_schedule : (noteRead k s).schedule = s.schedule := rfl
@[simp] theorem noteRead_pinTrace : (noteRead k s).pinTrace = s.pinTrace := rfl
@[simp] theorem noteRead_responses : (noteRead k s).responses = s.responses := rfl
@[simp] theorem noteRead_readTrace : (noteRead k s).readTrace = s.readTrace ++ [{ step := s.steps, k := k }] := rfl
@[simp] theorem noteRead_draws : (noteRead k s).draws = s.draws + 1 := rfl
@[simp] theorem noteRead_steps : (noteRead k s).steps = s.steps := rfl

@[simp] theorem cursorInit_params : (cursorInit s).params = s.params := rfl
@[simp] theorem cursorInit_configured : (cursorInit s).configured = s.configured := rfl
@[simp] theorem cursorInit_pin : (cursorInit s).pin = s.pin := rfl
@[simp] theorem cursorInit_tc : (cursorInit s).tc = s.tc := rfl
@[simp] theorem cursorInit_viewStart : (cursorInit s).viewStart = s.viewStart := rfl
@[simp] theorem cursorInit_viewEnd : (cursorInit s).viewEnd = s.viewEnd := rfl
@[simp] theorem cursorInit_resetting : (cursorInit s).resetting = s.resetting := rfl
@[simp] theorem cursorInit_startPending : (cursorInit s).startPending = s.startPending := rfl
@[simp] theorem cursorInit_level : (cursorInit s).level = s.level := rfl
@[simp] theorem cursorInit_pos : (cursorInit s).pos = previousPosition s.params s.viewStart := rfl
@[simp] theorem cursorInit_bit : (cursorInit s).bit = 23 := rfl
@[simp] theorem cursorInit_bitval : (cursorInit s).bitval = s.bitval := rfl
@[simp] theorem cursorInit_counter : (cursorInit s).counter = s.counter := rfl
@[simp] theorem cursorInit_target : (cursorInit s).target = s.target := rfl
@[simp] theorem cursorInit_lock : (cursorInit s).lock = s.lock := rfl
@[simp] theorem cursorInit_dropped : (cursorInit s).dropped = s.dropped := rfl
@[simp] theorem cursorInit_fgState : (cursorInit s).fgState = s.fgState := rfl
@[simp] theorem cursorInit_memory : (cursorInit s).memory = s.memory := rfl
@[simp] theorem cursorInit_program : (cursorInit s).program = s.program := rfl
@[simp] theorem cursorInit_schedule : (cursorInit s).schedule = s.schedule := rfl
@[simp] theorem cursorInit_pinTrace : (cursorInit s).pinTrace = s.pinTrace := rfl
@[simp] theorem cursorInit_responses : (cursorInit s).responses = s.responses := rfl
@[simp] theorem cursorInit_readTrace : (cursorInit s).readTrace = s.readTrace := rfl
@[simp] theorem cursorInit_draws : (cursorInit s).draws = s.draws := rfl
@[simp] theorem cursorInit_steps : (cursorInit s).steps = s.steps := rfl

@[simp] theorem acquire_params : (acquire op a b s).params = s.params := rfl
@[simp] theorem acquire_configured : (acquire op a b s).configured = s.configured := rfl
@[simp] theorem acquire_pin : (acquire op a b s).pin = s.pin := rfl
@[simp] theorem acquire_tc : (acquire op a b s).tc = s.tc := rfl
@[simp] theorem acquire_viewStart : (acquire op a b s).viewStart = s.viewStart := rfl
@[simp] theorem acquire_viewEnd : (acquire op a b s).viewEnd = s.viewEnd := rfl
@[simp] theorem acquire_resetting : (acquire op a b s).resetting = s.resetting := rfl
@[simp] theorem acquire_startPending : (acquire op a b s).startPending = s.startPending := rfl
@[simp] theorem acquire_level : (acquire op a b s).level = s.level := rfl
@[simp] theorem acquire_pos : (acquire op a b s).pos = s.pos := rfl
@[simp] theorem acquire_bit : (acquire op a b s).bit = s.bit := rfl
@[simp] theorem acquire_bitval : (acquire op a b s).bitval = s.bitval := rfl
@[simp] theorem acquire_counter : (acquire op a b s).counter = s.counter := rfl
@[simp] theorem acquire_target : (acquire op a b s).target = s.target := rfl
@[simp] theorem acquire_lock : (acquire op a b s).lock = s.lock + 1 := rfl
@[simp] theorem acquire_dropped : (acquire op a b s).dropped = s.dropped := rfl
@[simp] theorem acquire_fgState : (acquire op a b s).fgState = .held op a b := rfl
@[simp] theorem acquire_memory : (acquire op a b s).memory = s.memory := rfl
@[simp] theorem acquire_program : (acquire op a b s).program = s.program := rfl
@[simp] theorem acquire_schedule : (acquire op a b s).schedule = s.schedule := rfl
@[simp] theorem acquire_pinTrace : (acquire op a b s).pinTrace = s.pinTrace := rfl
@[simp] theorem acquire_responses : (acquire op a b s).responses = s.responses := rfl
@[simp] theorem acquire_readTrace : (acquire op a b s).readTrace = s.readTrace := rfl
@[simp] theorem acquire_draws : (acquire op a b s).draws = s.draws := rfl
@[simp] theorem acquire_steps : (acquire op a b s).steps = s.steps := rfl

@[simp] theorem countStep_params : (countStep s).params = s.params := rfl
@[simp] theorem countStep_configured : (countStep s).configured = s.configured := rfl
@[simp] theorem countStep_pin : (countStep s).pin = s.pin := rfl
@[simp] theorem countStep_tc : (countStep s).tc = s.tc := rfl
@[simp] theorem countStep_viewStart : (countStep s).viewStart = s.viewStart := rfl
@[simp] theorem countStep_viewEnd : (countStep s).viewEnd = s.viewEnd := rfl
@[simp] theorem countStep_resetting : (countStep s).resetting = s.resetting := rfl
@[simp] theorem countStep_startPending : (countStep s).startPending = s.startPending := rfl
@[simp] theorem countStep_level : (countStep s).level = s.level := rfl
@[simp] theorem countStep_pos : (countStep s).pos = s.pos := rfl
@[simp] theorem countStep_bit : (countStep s).bit = s.bit := rfl
@[simp] theorem countStep_bitval : (countStep s).bitval = s.bitval := rfl
@[simp] theorem countStep_counter : (countStep s).counter = s.counter := rfl
@[simp] theorem countStep_target : (countStep s).target = s.target := rfl
@[simp] theorem countStep_lock : (countStep s).lock = s.lock := rfl
@[simp] theorem countStep_dropped : (countStep s).dropped = s.dropped := rfl
@[simp] theorem countStep_fgState : (countStep s).fgState = s.fgState := rfl
@[simp] theorem countStep_memory : (countStep s).memory = s.memory := rfl
@[simp] theorem countStep_program : (countStep s).program = s.program := rfl
@[simp] theorem countStep_schedule : (countStep s).schedule = s.schedule := rfl
@[simp] theorem countStep_pinTrace : (countStep s).pinTrace = s.pinTrace := rfl
@[simp] theorem countStep_responses : (countStep s).responses = s.responses := rfl
@[simp] theorem countStep_readTrace : (countStep s).readTrace = s.readTrace := rfl
@[simp] theorem countStep_draws : (countStep s).draws = s.draws := rfl
@[simp] theorem countStep_steps : (countStep s).steps = s.steps + 1 := rfl

variable (code : ResponseCode) (d0 d1 : Data) (body : State → State × Answer)
@[simp] theorem release_params : (release code d0 d1 s).params = s.params := rfl
@[simp] theorem release_configured : (release code d0 d1 s).configured = s.configured := rfl
@[simp] theorem release_pin : (release code d0 d1 s).pin = s.pin := rfl
@[simp] theorem release_tc : (release code d0 d1 s).tc = s.tc := rfl
@[simp] theorem release_viewStart : (release code d0 d1 s).viewStart = s.viewStart := rfl
@[simp] theorem release_viewEnd : (release code d0 d1 s).viewEnd = s.viewEnd := rfl
@[simp] theorem release_resetting : (release code d0 d1 s).resetting = s.resetting := rfl
@[simp] theorem release_startPending : (release code d0 d1 s).startPending = s.startPending := rfl
@[simp] theorem release_level : (release code d0 d1 s).level = s.level := rfl
@[simp] theorem release_pos : (release code d0 d1 s).pos = s.pos := rfl
@[simp] theorem release_bit : (release code d0 d1 s).bit = s.bit := rfl
@[simp] theorem release_bitval : (release code d0 d1 s).bitval = s.bitval := rfl
@[simp] theorem release_counter : (release code d0 d1 s).counter = s.counter := rfl
@[simp] theorem release_target : (release code d0 d1 s).target = s.target := rfl
@[simp] theorem release_lock : (release code d0 d1 s).lock = s.lock - 1 := rfl
@[simp] theorem release_dropped : (release code d0 d1 s).dropped = s.dropped := rfl
@[simp] theorem release_fgState : (release code d0 d1 s).fgState = .idle := rfl
@[simp] theorem release_memory : (release code d0 d1 s).memory = s.memory := rfl
@[simp] theorem release_program : (release code d0 d1 s).program = s.program := rfl
@[simp] theorem release_schedule : (release code d0 d1 s).schedule = s.schedule := rfl
@[simp] theorem release_pinTrace : (release code d0 d1 s).pinTrace = s.pinTrace := rfl
@[simp] theorem release_responses :
    (release code d0 d1 s).responses =
      s.responses ++ [{ step := s.steps, port := .command, code := code, d0 := d0, d1 := d1 }] := rfl
@[simp] theorem release_readTrace : (release code d0 d1 s).readTrace = s.readTrace := rfl
@[simp] theorem release_draws : (release code d0 d1 s).draws = s.draws := rfl
@[simp] theorem release_steps : (release code d0 d1 s).steps = s.steps := rfl

@[simp] theorem runBody_params : (runBody body s).params = (body s).1.params := rfl
@[simp] theorem runBody_configured : (runBody body s).configured = (body s).1.configured := rfl
@[simp] theorem runBody_pin : (runBody body s).pin = (body s).1.pin := rfl
@[simp] theorem runBody_tc : (runBody body s).tc = (body s).1.tc := rfl
@[simp] theorem runBody_viewStart : (runBody body s).viewStart = (body s).1.viewStart := rfl
@[simp] theorem runBody_viewEnd : (runBody body s).viewEnd = (body s).1.viewEnd := rfl
@[simp] theorem runBody_resetting : (runBody body s).resetting = (body s).1.resetting := rfl
@[simp] theorem runBody_startPending : (runBody body s).startPending = (body s).1.startPending := rfl
@[simp] theorem runBody_level : (runBody body s).level = (body s).1.level := rfl
@[simp] theorem runBody_pos : (runBody body s).pos = (body s).1.pos := rfl
@[simp] theorem runBody_bit : (runBody body s).bit = (body s).1.bit := rfl
@[simp] theorem runBody_bitval : (runBody body s).bitval = (body s).1.bitval := rfl
@[simp] theorem runBody_counter : (runBody body s).counter = (body s).1.counter := rfl
@[simp] theorem runBody_target : (runBody body s).target = (body s).1.target := rfl
@[simp] theorem runBody_lock : (runBody body s).lock = (body s).1.lock := rfl
@[simp] theorem runBody_dropped : (runBody body s).dropped = (body s).1.dropped := rfl
@[simp] theorem runBody_fgState : (runBody body s).fgState = .done (body s).2.code (body s).2.d0 (body s).2.d1 := rfl
@[simp] theorem runBody_memory : (runBody body s).memory = (body s).1.memory := rfl
@[simp] theorem runBody_program : (runBody body s).program = (body s).1.program := rfl
@[simp] theorem runBody_schedule : (runBody body s).schedule = (body s).1.schedule := rfl
@[simp] theorem runBody_pinTrace : (runBody body s).pinTrace = (body s).1.pinTrace := rfl
@[simp] theorem runBody_responses : (runBody body s).responses = (body s).1.responses := rfl
@[simp] theorem runBody_readTrace : (runBody body s).readTrace = (body s).1.readTrace := rfl
@[simp] theorem runBody_draws : (runBody body s).draws = (body s).1.draws := rfl
@[simp] theorem runBody_steps : (runBody body s).steps = (body s).1.steps := rfl

end Sys2Proof.Machine
end

