-- ==== Sys2Proof/Laws/Ops.lean ====
section
/-! SUPPORT. One lemma for each shared operation: the guard, the reset entry, positions, a pass of TICK, outcomes. -/

namespace Sys2Proof.Machine

/-! ### Positions -/

theorem two_pow_pos (n : Nat) : 0 < 2 ^ n := Nat.two_pow_pos n

theorem previousPosition_lt (p : Params) (k : Nat) : previousPosition p k < 2 ^ p.aw :=
  Nat.mod_lt _ (two_pow_pos _)

theorem nextPosition_lt (p : Params) (k : Nat) : nextPosition p k < 2 ^ p.aw := Nat.mod_lt _ (two_pow_pos _)

/-- `(k - 1) mod 2^AW` of a position is the one before it, and `POS_MASK` before 0. -/
theorem previousPosition_eq {p : Params} {k : Nat} (h : k < 2 ^ p.aw) :
    previousPosition p k = if k = 0 then p.posMask else k - 1 := by
  unfold previousPosition Params.posMask
  have h2 := two_pow_pos p.aw
  split_ifs with hk
  · rw [hk, Nat.zero_add, Nat.mod_eq_of_lt (by omega)]
  · rw [show k + 2 ^ p.aw - 1 = (k - 1) + 2 ^ p.aw by omega, Nat.add_mod_right, Nat.mod_eq_of_lt (by omega)]

/-- The cursor just before the first colour advances to the first colour (41 R113). -/
theorem nextPosition_previousPosition {p : Params} {k : Nat} (h : k < 2 ^ p.aw) :
    nextPosition p (previousPosition p k) = k := by
  have h2 := two_pow_pos p.aw
  rw [previousPosition_eq h]
  unfold nextPosition Params.posMask
  split_ifs with hk
  · rw [Nat.sub_add_cancel (by omega), Nat.mod_self, hk]
  · rw [Nat.sub_add_cancel (by omega), Nat.mod_eq_of_lt h]

/-! ### Outcomes -/

@[simp] theorem mapNext_next (f : State → State) (s : State) : mapNext f (.next s) = .next (f s) := rfl

@[simp] theorem andThen_next (s : State) (f : State → Host.Outcome State Fault Refusal) :
    andThen (.next s) f = f s := rfl

theorem mapNext_eq_next {f : State → State} {o : Host.Outcome State Fault Refusal} {t : State}
    (h : mapNext f o = .next t) : ∃ u, o = .next u ∧ t = f u := by
  cases o with
  | next u => exact ⟨u, rfl, (Host.Outcome.next.inj h).symm⟩
  | fault r => cases h
  | refused r => cases h

/-! ### The guard -/

/-- All that a step of a guarded command can be, when it goes on: ACQUIRE, BODY or RELEASE (20_memory R58). -/
theorem guarded_next {op : GuardedOp} {a b : Data} {body : State → State × Answer} {s t : State}
    (h : guarded op a b body s = .next t) :
    (s.fgState = .idle ∧ t = acquire op a b s) ∨
    (s.fgState = .held op a b ∧ t = runBody body s) ∨
    (∃ code d0 d1, s.fgState = .done code d0 d1 ∧ s.lock ≠ 0 ∧ t = release code d0 d1 s) := by
  unfold guarded at h
  split at h
  · exact .inl ⟨‹_›, (Host.Outcome.next.inj h).symm⟩
  · split_ifs at h with hc
    obtain ⟨rfl, rfl, rfl⟩ := hc
    exact .inr (.inl ⟨‹_›, (Host.Outcome.next.inj h).symm⟩)
  · split_ifs at h with hl
    exact .inr (.inr ⟨_, _, _, ‹_›, hl, (Host.Outcome.next.inj h).symm⟩)

theorem guarded_idle {op : GuardedOp} {a b : Data} {body : State → State × Answer} {s : State}
    (h : s.fgState = .idle) : guarded op a b body s = .next (acquire op a b s) := by
  simp [guarded, h]

theorem guarded_held {op : GuardedOp} {a b : Data} {body : State → State × Answer} {s : State}
    (h : s.fgState = .held op a b) : guarded op a b body s = .next (runBody body s) := by
  simp [guarded, h]

theorem guarded_done {op : GuardedOp} {a b : Data} {body : State → State × Answer} {s : State}
    {code : ResponseCode} {d0 d1 : Data} (h : s.fgState = .done code d0 d1) (hl : s.lock ≠ 0) :
    guarded op a b body s = .next (release code d0 d1 s) := by
  simp [guarded, h, hl]

/-- An unguarded command goes on only from `Idle`, in its one step (20_memory R59). -/
theorem unguarded_next {body : State → State × Answer} {s t : State} (h : unguarded body s = .next t) :
    s.fgState = .idle ∧ t = respond .command (body s).2 (body s).1 := by
  unfold unguarded at h
  split at h
  · exact ⟨‹_›, (Host.Outcome.next.inj h).symm⟩
  · cases h
  · cases h

theorem unguarded_idle {body : State → State × Answer} {s : State} (h : s.fgState = .idle) :
    unguarded body s = .next (respond .command (body s).2 (body s).1) := by
  simp [unguarded, h]

/-- The nested increment and decrement leave `LOCK` as it was (10_state R37). -/
theorem nested_eq (f : State → State) (s : State) (hf : ∀ u : State, (f u).lock = u.lock)
    (hc : ∀ (u : State) (n : Nat), f { u with lock := n } = { f u with lock := n }) : nested f s = f s := by
  unfold nested
  have h : (f s).lock = s.lock := hf s
  rw [hc]
  simp only [Nat.add_sub_cancel, ← h]

/-! ### The reset entry (42 R130) -/

/-- R133: while Resetting nothing changes. -/
theorem resetEntry_resetting {s : State} (h : s.resetting = true) : resetEntry s = s := by
  simp [resetEntry, h]

/-- R131: while Transmitting and high. -/
theorem resetEntry_high {s : State} (h : s.resetting = false) (hl : s.level = true) :
    resetEntry s =
      { s with
        resetting := true, pos := previousPosition s.params s.viewStart, bit := 23, level := false,
        pinTrace := withPinWrite s s.pin false, counter := 1, target := s.tc.res } := by
  simp [resetEntry, h, hl, cursorInit, drive, pinEvent, withPinWrite]

/-- R132: while Transmitting and low. -/
theorem resetEntry_low {s : State} (h : s.resetting = false) (hl : s.level = false) :
    resetEntry s =
      { s with resetting := true, pos := previousPosition s.params s.viewStart, bit := 23, target := s.tc.res } := by
  simp [resetEntry, h, hl, cursorInit]

/-- All that a reset entry can do. -/
theorem resetEntry_cases (s : State) :
    (s.resetting = true ∧ resetEntry s = s) ∨
    (s.resetting = false ∧ s.level = true ∧
      resetEntry s =
        { s with
          resetting := true, pos := previousPosition s.params s.viewStart, bit := 23, level := false,
          pinTrace := withPinWrite s s.pin false, counter := 1, target := s.tc.res }) ∨
    (s.resetting = false ∧ s.level = false ∧
      resetEntry s =
        { s with
          resetting := true, pos := previousPosition s.params s.viewStart, bit := 23, target := s.tc.res }) := by
  rcases Bool.eq_false_or_eq_true s.resetting with h | h
  · exact .inl ⟨h, resetEntry_resetting h⟩
  · rcases Bool.eq_false_or_eq_true s.level with hl | hl
    · exact .inr (.inl ⟨h, hl, resetEntry_high h hl⟩)
    · exact .inr (.inr ⟨h, hl, resetEntry_low h hl⟩)

/-! A reset entry writes none of these. -/

@[simp] theorem resetEntry_params (s : State) : (resetEntry s).params = s.params := by
  obtain ⟨-, h⟩ | ⟨-, -, h⟩ | ⟨-, -, h⟩ := resetEntry_cases s <;> rw [h]

@[simp] theorem resetEntry_configured (s : State) : (resetEntry s).configured = s.configured := by
  obtain ⟨-, h⟩ | ⟨-, -, h⟩ | ⟨-, -, h⟩ := resetEntry_cases s <;> rw [h]

@[simp] theorem resetEntry_pin (s : State) : (resetEntry s).pin = s.pin := by
  obtain ⟨-, h⟩ | ⟨-, -, h⟩ | ⟨-, -, h⟩ := resetEntry_cases s <;> rw [h]

@[simp] theorem resetEntry_tc (s : State) : (resetEntry s).tc = s.tc := by
  obtain ⟨-, h⟩ | ⟨-, -, h⟩ | ⟨-, -, h⟩ := resetEntry_cases s <;> rw [h]

@[simp] theorem resetEntry_viewStart (s : State) : (resetEntry s).viewStart = s.viewStart := by
  obtain ⟨-, h⟩ | ⟨-, -, h⟩ | ⟨-, -, h⟩ := resetEntry_cases s <;> rw [h]

@[simp] theorem resetEntry_viewEnd (s : State) : (resetEntry s).viewEnd = s.viewEnd := by
  obtain ⟨-, h⟩ | ⟨-, -, h⟩ | ⟨-, -, h⟩ := resetEntry_cases s <;> rw [h]

@[simp] theorem resetEntry_startPending (s : State) : (resetEntry s).startPending = s.startPending := by
  obtain ⟨-, h⟩ | ⟨-, -, h⟩ | ⟨-, -, h⟩ := resetEntry_cases s <;> rw [h]

@[simp] theorem resetEntry_bitval (s : State) : (resetEntry s).bitval = s.bitval := by
  obtain ⟨-, h⟩ | ⟨-, -, h⟩ | ⟨-, -, h⟩ := resetEntry_cases s <;> rw [h]

@[simp] theorem resetEntry_lock (s : State) : (resetEntry s).lock = s.lock := by
  obtain ⟨-, h⟩ | ⟨-, -, h⟩ | ⟨-, -, h⟩ := resetEntry_cases s <;> rw [h]

@[simp] theorem resetEntry_dropped (s : State) : (resetEntry s).dropped = s.dropped := by
  obtain ⟨-, h⟩ | ⟨-, -, h⟩ | ⟨-, -, h⟩ := resetEntry_cases s <;> rw [h]

@[simp] theorem resetEntry_fgState (s : State) : (resetEntry s).fgState = s.fgState := by
  obtain ⟨-, h⟩ | ⟨-, -, h⟩ | ⟨-, -, h⟩ := resetEntry_cases s <;> rw [h]

@[simp] theorem resetEntry_memory (s : State) : (resetEntry s).memory = s.memory := by
  obtain ⟨-, h⟩ | ⟨-, -, h⟩ | ⟨-, -, h⟩ := resetEntry_cases s <;> rw [h]

@[simp] theorem resetEntry_program (s : State) : (resetEntry s).program = s.program := by
  obtain ⟨-, h⟩ | ⟨-, -, h⟩ | ⟨-, -, h⟩ := resetEntry_cases s <;> rw [h]

@[simp] theorem resetEntry_schedule (s : State) : (resetEntry s).schedule = s.schedule := by
  obtain ⟨-, h⟩ | ⟨-, -, h⟩ | ⟨-, -, h⟩ := resetEntry_cases s <;> rw [h]

@[simp] theorem resetEntry_responses (s : State) : (resetEntry s).responses = s.responses := by
  obtain ⟨-, h⟩ | ⟨-, -, h⟩ | ⟨-, -, h⟩ := resetEntry_cases s <;> rw [h]

@[simp] theorem resetEntry_readTrace (s : State) : (resetEntry s).readTrace = s.readTrace := by
  obtain ⟨-, h⟩ | ⟨-, -, h⟩ | ⟨-, -, h⟩ := resetEntry_cases s <;> rw [h]

@[simp] theorem resetEntry_draws (s : State) : (resetEntry s).draws = s.draws := by
  obtain ⟨-, h⟩ | ⟨-, -, h⟩ | ⟨-, -, h⟩ := resetEntry_cases s <;> rw [h]

@[simp] theorem resetEntry_steps (s : State) : (resetEntry s).steps = s.steps := by
  obtain ⟨-, h⟩ | ⟨-, -, h⟩ | ⟨-, -, h⟩ := resetEntry_cases s <;> rw [h]

theorem nested_resetEntry (s : State) : nested resetEntry s = resetEntry s := by
  refine nested_eq _ _ (fun u => ?_) fun u n => ?_
  · cases h : u.resetting <;> cases hl : u.level <;>
      simp [resetEntry, h, hl]
  · cases h : u.resetting <;> cases hl : u.level <;>
      simp [resetEntry, h, hl, cursorInit, drive, pinEvent]

theorem nested_forcedResetEntry (s : State) : nested forcedResetEntry s = forcedResetEntry s :=
  nested_eq _ _ (fun _ => rfl) fun _ _ => rfl

/-! ### A pass of TICK (41 R108) -/

/-- In progress: the target is not reached (R111). -/
theorem passWith_counting {f : State → State × ResponseCode} {s : State} (h : s.counter + 1 < s.target) :
    passWith f s = ({ s with counter := s.counter + 1 }, .ok) := by
  simp [passWith, h]

/-- A completion while Resetting (R112, R113). -/
theorem passWith_resetting {f : State → State × ResponseCode} {s : State} (h : s.target ≤ s.counter + 1)
    (hr : s.resetting = true) : passWith f s = f { s with counter := 0 } := by
  simp [passWith, hr, Nat.not_lt.2 h]

/-- A completion while Transmitting (R112). -/
theorem passWith_transmitting {f : State → State × ResponseCode} {s : State} (h : s.target ≤ s.counter + 1)
    (hr : s.resetting = false) : passWith f s = transmitCompletion { s with counter := 0 } := by
  simp [passWith, hr, Nat.not_lt.2 h]

/-- The transition always takes the high-phase branch, in the same TICK (R113). -/
theorem secondPass_transition (s : State) :
    secondPass (transition { s with counter := 0 }) = highPhaseDone { transition s with counter := 0 } := by
  rw [secondPass, passWith_transmitting (by simp [transition]) (by simp [transition])]
  simp [transmitCompletion, transition, cursorInit]

theorem tickPass_counting {s : State} (h : s.counter + 1 < s.target) :
    tickPass s = ({ s with counter := s.counter + 1 }, .ok) := passWith_counting h

theorem tickPass_hold {s : State} (h : s.target ≤ s.counter + 1) (hr : s.resetting = true)
    (hp : s.startPending = false) : tickPass s = ({ s with counter := 0, target := s.tc.res }, .ok) := by
  rw [tickPass, passWith_resetting h hr]
  simp [hp, resetHold]

theorem tickPass_transition {s : State} (h : s.target ≤ s.counter + 1) (hr : s.resetting = true)
    (hp : s.startPending = true) : tickPass s = highPhaseDone { transition s with counter := 0 } := by
  rw [tickPass, passWith_resetting h hr]
  simp only [hp, if_true]
  exact secondPass_transition s

theorem tickPass_low {s : State} (h : s.target ≤ s.counter + 1) (hr : s.resetting = false)
    (hl : s.level = false) : tickPass s = lowPhaseDone { s with counter := 0 } := by
  rw [tickPass, passWith_transmitting h hr]
  simp [transmitCompletion, hl]

theorem tickPass_high {s : State} (h : s.target ≤ s.counter + 1) (hr : s.resetting = false)
    (hl : s.level = true) : tickPass s = highPhaseDone { s with counter := 0 } := by
  rw [tickPass, passWith_transmitting h hr]
  simp [transmitCompletion, hl]

/-- Every case of a counted tick: counting, reset hold, transition, low-phase and high-phase completion. -/
theorem tickPass_cases (s : State) :
    (s.counter + 1 < s.target ∧ tickPass s = ({ s with counter := s.counter + 1 }, .ok)) ∨
    (s.target ≤ s.counter + 1 ∧ s.resetting = true ∧ s.startPending = false ∧
      tickPass s = ({ s with counter := 0, target := s.tc.res }, .ok)) ∨
    (s.target ≤ s.counter + 1 ∧ s.resetting = true ∧ s.startPending = true ∧
      tickPass s = highPhaseDone { transition s with counter := 0 }) ∨
    (s.target ≤ s.counter + 1 ∧ s.resetting = false ∧ s.level = false ∧
      tickPass s = lowPhaseDone { s with counter := 0 }) ∨
    (s.target ≤ s.counter + 1 ∧ s.resetting = false ∧ s.level = true ∧
      tickPass s = highPhaseDone { s with counter := 0 }) := by
  by_cases hc : s.counter + 1 < s.target
  · exact .inl ⟨hc, tickPass_counting hc⟩
  have h : s.target ≤ s.counter + 1 := by omega
  rcases Bool.eq_false_or_eq_true s.resetting with hr | hr
  · rcases Bool.eq_false_or_eq_true s.startPending with hp | hp
    · exact .inr (.inr (.inl ⟨h, hr, hp, tickPass_transition h hr hp⟩))
    · exact .inr (.inl ⟨h, hr, hp, tickPass_hold h hr hp⟩)
  · rcases Bool.eq_false_or_eq_true s.level with hl | hl
    · exact .inr (.inr (.inr (.inr ⟨h, hr, hl, tickPass_high h hr hl⟩)))
    · exact .inr (.inr (.inr (.inl ⟨h, hr, hl, tickPass_low h hr hl⟩)))

end Sys2Proof.Machine
end

