-- ==== Sys2Proof/Laws/Commands.lean ====
section
/-! SUPPORT. The bodies of the guarded commands, a guarded command written alone, and what a step of each agent is. -/

namespace Sys2Proof.Machine

/-! ### Bodies -/

theorem bindPin_eq (pin : Nat) (c : TickCounts) (s : State) :
    bindPin pin c s =
      { s with
        tc := c, pin := pin, configured := true, resetting := true,
        pos := previousPosition s.params s.viewStart, bit := 23, level := false, counter := 1, target := c.res,
        pinTrace := s.pinTrace ++
          [{ step := s.steps, event := .mode pin }, { step := s.steps, event := .write pin false }] } := by
  unfold bindPin
  rw [nested_forcedResetEntry]
  simp [forcedResetEntry, pinMode, pinEvent, drive, cursorInit]

theorem configureBody_fail {a b : Data} {s : State}
    (h : calibrate s.params (periodOperand s.params b) = none) : configureBody a b s = (s, plain .fail) := by
  simp [configureBody, h]

theorem configureBody_ok {a b : Data} {s : State} {c : TickCounts}
    (h : calibrate s.params (periodOperand s.params b) = some c) :
    configureBody a b s = (bindPin (pinOperand s.params a) c s, plain .ok) := by
  simp [configureBody, h]

theorem configureBody_lock (a b : Data) (s : State) : (configureBody a b s).1.lock = s.lock := by
  unfold configureBody
  split
  · rfl
  · rw [bindPin_eq]

theorem feedBody_eq (a b : Data) (s : State) :
    feedBody a b s =
      (resetEntry (cursorInit { s with
          viewStart := positionOperand s.params a, viewEnd := positionOperand s.params b }),
        { code := .ok, d0 := zext32 s.params.aw s.viewStart, d1 := zext32 s.params.aw s.viewEnd }) := by
  simp only [feedBody, nested_resetEntry]

theorem feedBody_lock (a b : Data) (s : State) : (feedBody a b s).1.lock = s.lock := by
  rw [feedBody_eq, resetEntry_lock]
  rfl

theorem asyncResetBody_eq (s : State) : asyncResetBody s = (resetEntry s, plain .ok) := by
  simp only [asyncResetBody, nested_resetEntry]

theorem asyncResetBody_lock (s : State) : (asyncResetBody s).1.lock = s.lock := by
  rw [asyncResetBody_eq, resetEntry_lock]

/-! ### What `exec` calls -/

/-- A command that is neither TICK nor guarded is one unguarded step, and only START writes a register. -/
theorem exec_unguarded {i : Instr} (ht : i ≠ .tick) (hg : isGuarded i = false) :
    ∃ body : State → State × Answer, (∀ s, exec i s = unguarded body s) ∧
      ((∀ s, (body s).1 = s) ∨ ((∃ a b, i = .start a b) ∧ ∀ s, (body s).1 = { s with startPending := true })) := by
  cases i with
  | configure | feed | asyncReset => cases hg
  | tick => exact absurd rfl ht
  | start a b => exact ⟨startBody, fun _ => rfl, .inr ⟨⟨a, b, rfl⟩, fun _ => rfl⟩⟩
  | reserved0 | reserved5 | reservedF => exact ⟨illegalBody, fun _ => rfl, .inl fun _ => rfl⟩
  | _ => exact ⟨_, fun _ => rfl, .inl fun _ => rfl⟩

/-- A guarded command is the three steps of its operation, around its body. -/
theorem exec_guarded {i : Instr} (hg : isGuarded i = true) :
    ∃ (op : GuardedOp) (a b : Data) (body : State → State × Answer), i = op.instr a b ∧
      (∀ s, exec i s = guarded op a b body s) ∧ ∀ s, (body s).1.lock = s.lock := by
  cases i with
  | configure a b => exact ⟨.configure, a, b, _, rfl, fun _ => rfl, configureBody_lock a b⟩
  | feed a b => exact ⟨.feed, a, b, _, rfl, fun _ => rfl, feedBody_lock a b⟩
  | asyncReset a b => exact ⟨.asyncReset, a, b, _, rfl, fun _ => rfl, asyncResetBody_lock⟩
  | _ => cases hg

/-- No command word is a TICK: TK has its own port (30_encoding R70). -/
theorem decodeCommand_ne_tick (cw : CommandWord) : decodeCommand cw ≠ .tick := by
  unfold decodeCommand
  generalize (opField cw).toFin = op
  fin_cases op <;> simp [commandOfOpcode]

/-! ### A guarded command written alone (30_encoding R78) -/

/-- ACQUIRE, BODY, RELEASE in a row: the body run under the guard, the guard given back, one response. -/
theorem guarded_alone {op : GuardedOp} {a b : Data} {body : State → State × Answer} {s : State}
    (h : s.fgState = .idle) (hl : ∀ u : State, (body u).1.lock = u.lock) :
    (andThen (guarded op a b body s) fun s =>
      andThen (guarded op a b body s) (guarded op a b body)) =
      .next (release (body (acquire op a b s)).2.code (body (acquire op a b s)).2.d0
        (body (acquire op a b s)).2.d1 (runBody body (acquire op a b s))) := by
  rw [guarded_idle h, andThen_next, guarded_held (by simp), andThen_next]
  refine guarded_done rfl ?_
  show (body (acquire op a b s)).1.lock ≠ 0
  rw [hl, acquire_lock]
  omega

theorem alone_configure {a b : Data} {s : State} (h : s.fgState = .idle) :
    alone (.configure a b) s =
      let r := configureBody a b (acquire .configure a b s)
      .next (release r.2.code r.2.d0 r.2.d1 { r.1 with fgState := .done r.2.code r.2.d0 r.2.d1 }) :=
  guarded_alone h (configureBody_lock a b)

theorem alone_feed {a b : Data} {s : State} (h : s.fgState = .idle) :
    alone (.feed a b) s =
      let r := feedBody a b (acquire .feed a b s)
      .next (release r.2.code r.2.d0 r.2.d1 { r.1 with fgState := .done r.2.code r.2.d0 r.2.d1 }) :=
  guarded_alone h (feedBody_lock a b)

theorem alone_asyncReset {a b : Data} {s : State} (h : s.fgState = .idle) :
    alone (.asyncReset a b) s =
      let r := asyncResetBody (acquire .asyncReset a b s)
      .next (release r.2.code r.2.d0 r.2.d1 { r.1 with fgState := .done r.2.code r.2.d0 r.2.d1 }) :=
  guarded_alone h asyncResetBody_lock

/-! ### Steps of the agents -/

theorem step_eq_agentStep {s : State} (hv : s.params.Valid) (hl : s.lock ≠ 3) : step s = agentStep s := by
  rw [step, if_neg (not_not.2 hv), if_neg hl]

theorem step_tk {s : State} {rest : List Agent} (hv : s.params.Valid) (hl : s.lock ≠ 3)
    (hs : s.schedule = .tk :: rest) : step s = tkStep { s with schedule := rest } := by
  rw [step_eq_agentStep hv hl, agentStep, hs]

theorem step_fg {s : State} {rest : List Agent} (hv : s.params.Valid) (hl : s.lock ≠ 3)
    (hs : s.schedule = .fg :: rest) : step s = fgStep { s with schedule := rest } := by
  rw [step_eq_agentStep hv hl, agentStep, hs]

theorem step_fgMemory {s : State} {rest : List Agent} (hv : s.params.Valid) (hl : s.lock ≠ 3)
    (hs : s.schedule = .fgMemory :: rest) : step s = fgMemoryStep { s with schedule := rest } := by
  rw [step_eq_agentStep hv hl, agentStep, hs]

/-- While a command is in flight the program is its word and what comes after. -/
theorem portWord_inFlight {s : State} {act : FgAction} {more : List FgAction} (h : s.fgState ≠ .idle)
    (hp : s.program = act :: more) : portWord s = [act] ∧ afterPort s = more := by
  unfold portWord afterPort
  split
  · exact absurd ‹_› h
  · simp [hp]
  · simp [hp]

theorem portWord_idle {s : State} (h : s.fgState = .idle) : portWord s = [] ∧ afterPort s = s.program := by
  simp [portWord, afterPort, h]

/-- In either case the two parts are the program. -/
theorem portWord_append_afterPort (s : State) : portWord s ++ afterPort s = s.program := by
  unfold portWord afterPort
  split
  · rfl
  · exact List.take_append_drop 1 s.program
  · exact List.take_append_drop 1 s.program

/-- All that FG's step on colour memory can be, when it goes on: nothing to do, a store, a reclaim. -/
theorem fgMemoryStep_next {s t : State} (h : fgMemoryStep s = .next t) :
    t = s ∨
    (∃ k c v more, afterPort s = .store k c v :: more ∧ k < 2 ^ s.params.aw ∧
      t = { s with
        program := portWord s ++ more, memory := s.memory.write (cellAddress s.params k c) v, steps := s.steps + 1 }) ∨
    (∃ k more, afterPort s = .reclaim k :: more ∧ k < 2 ^ s.params.aw ∧
      t = { s with
        program := portWord s ++ more, memory := s.memory.reclaim s.params k, steps := s.steps + 1 }) := by
  unfold fgMemoryStep at h
  split at h
  · exact .inl (Host.Outcome.next.inj h).symm
  · exact .inl (Host.Outcome.next.inj h).symm
  · rename_i k c v more hp
    obtain ⟨u, hu, rfl⟩ := mapNext_eq_next h
    unfold storeChannel at hu
    split_ifs at hu with hk
    cases hu
    exact .inr (.inl ⟨k, c, v, more, hp, hk, rfl⟩)
  · rename_i k more hp
    obtain ⟨u, hu, rfl⟩ := mapNext_eq_next h
    unfold reclaimPosition at hu
    split_ifs at hu with hk
    cases hu
    exact .inr (.inr ⟨k, more, hp, hk, rfl⟩)

/-- All that a step can be, when it goes on: nothing to do, a TICK, a step of a command, a store, a reclaim, or FG's
step on colour memory, which `fgMemoryStep_next` takes apart. -/
theorem step_next {s t : State} (h : step s = .next t) :
    s.params.Valid ∧ s.lock ≠ 3 ∧
    ((s.schedule = [] ∧ t = s) ∨
      (∃ rest u, s.schedule = .tk :: rest ∧ exec .tick { s with schedule := rest } = .next u ∧ t = countStep u) ∨
      (∃ rest, s.schedule = .fg :: rest ∧ s.program = [] ∧ t = { s with schedule := rest }) ∨
      (∃ rest cw more u, s.schedule = .fg :: rest ∧ s.program = .command cw :: more ∧
        exec (decodeCommand cw) { s with schedule := rest } = .next u ∧ t = countStep (finishCommand u)) ∨
      (∃ rest k c v more, s.schedule = .fg :: rest ∧ s.program = .store k c v :: more ∧ k < 2 ^ s.params.aw ∧
        t = { s with
          schedule := rest, program := more, memory := s.memory.write (cellAddress s.params k c) v,
          steps := s.steps + 1 }) ∨
      (∃ rest k more, s.schedule = .fg :: rest ∧ s.program = .reclaim k :: more ∧ k < 2 ^ s.params.aw ∧
        t = { s with
          schedule := rest, program := more, memory := s.memory.reclaim s.params k, steps := s.steps + 1 }) ∨
      (∃ rest, s.schedule = .fgMemory :: rest ∧ fgMemoryStep { s with schedule := rest } = .next t)) := by
  by_cases hv : s.params.Valid
  swap
  · rw [step, if_pos hv] at h; cases h
  by_cases hl : s.lock = 3
  · rw [step, if_neg (not_not.2 hv), if_pos hl] at h; cases h
  refine ⟨hv, hl, ?_⟩
  rw [step_eq_agentStep hv hl] at h
  unfold agentStep at h
  split at h
  · exact .inl ⟨‹_›, (Host.Outcome.next.inj h).symm⟩
  · rename_i rest hs
    unfold fgStep at h
    split at h
    · rename_i hp
      exact .inr (.inr (.inl ⟨rest, hs, hp, (Host.Outcome.next.inj h).symm⟩))
    · rename_i cw more hp
      obtain ⟨u, hu, rfl⟩ := mapNext_eq_next h
      exact .inr (.inr (.inr (.inl ⟨rest, cw, more, u, hs, hp, hu, rfl⟩)))
    · rename_i k c v more hp
      obtain ⟨u, hu, rfl⟩ := mapNext_eq_next h
      unfold storeChannel at hu
      split_ifs at hu with hk
      cases hu
      exact .inr (.inr (.inr (.inr (.inl ⟨rest, k, c, v, more, hs, hp, hk, rfl⟩))))
    · rename_i k more hp
      obtain ⟨u, hu, rfl⟩ := mapNext_eq_next h
      unfold reclaimPosition at hu
      split_ifs at hu with hk
      cases hu
      exact .inr (.inr (.inr (.inr (.inr (.inl ⟨rest, k, more, hs, hp, hk, rfl⟩)))))
  · rename_i rest hs
    exact .inr (.inr (.inr (.inr (.inr (.inr ⟨rest, hs, h⟩)))))
  · rename_i rest hs
    obtain ⟨u, hu, rfl⟩ := mapNext_eq_next h
    exact .inr (.inl ⟨rest, u, hs, hu, rfl⟩)

/-! ### Accessors (43) -/

theorem zext32_eq {width v : Nat} (h : width ≤ 32 ∨ v < 2 ^ 32) : zext32 width v = BitVec.ofNat 32 v := if_pos h

theorem zext32Positive_eq {width v : Nat} (h : width ≤ 32 ∨ v < 2 ^ 32) :
    zext32Positive width v = BitVec.ofNat 32 v := if_pos h

/-- A register that holds 0 is reported as 0, whatever its width. -/
@[simp] theorem zext32_zero (width : Nat) : zext32 width 0 = 0 := zext32_eq (.inr (by decide))

@[simp] theorem zext32Positive_zero (width : Nat) : zext32Positive width 0 = 0 := zext32Positive_eq (.inr (by decide))

/-- 43 R147 before the first successful CONFIGURE: `0x1` (vector G1), or `0x3` after a START. -/
theorem statusWord_unconfigured {s : State} (hr : s.resetting = true) (hl : s.level = false)
    (hc : s.configured = false) : statusWord s = if s.startPending then 3 else 1 := by
  cases h : s.startPending <;> simp [statusWord, hr, hl, hc, h]

/-- A register above 0 within its width has a data word above 0. -/
theorem zext32Positive_ne_zero {width v : Nat} (h : 0 < v) (hw : v < 2 ^ width) : zext32Positive width v ≠ 0 := by
  unfold zext32Positive
  have small : v < 2 ^ 32 → BitVec.ofNat 32 v ≠ 0 := fun hv e => by
    have := congrArg BitVec.toNat e
    simp at this
    omega
  split_ifs with hc h0
  · exact small (hc.elim (fun hle => Nat.lt_of_lt_of_le hw (Nat.pow_le_pow_right (by decide) hle)) id)
  · decide
  · exact h0

/-- Every accessor, from `Idle` (43 R140). -/
theorem accessor_idle {d0 d1 : State → Data} {s : State} (h : s.fgState = .idle) :
    accessor d0 d1 s = .next { s with responses := withResponse s .command .ok (d0 s) (d1 s) } :=
  unguarded_idle h

/-- The accessor of one register, from `Idle` (43 R141 to R145, R149). -/
theorem getRegister_idle {width : Params → Nat} {value : State → Nat} {s : State} (h : s.fgState = .idle) :
    getRegister width value s =
      .next { s with responses := withResponse s .command .ok (zext32 (width s.params) (value s)) 0 } :=
  accessor_idle h

end Sys2Proof.Machine
end

