-- ==== Sys2Proof/Laws/Encoding.lean ====
section
/-! SUPPORT. The fields of a command word and the word made of them (30_encoding R71). -/

namespace Sys2Proof

/-- Bit `i` of `{B, A, OP}`. -/
theorem getLsbD_commandWord (op : BitVec 4) (a b : Data) (i : Nat) :
    (commandWord op a b).getLsbD i =
      if i < 36 then if i < 4 then op.getLsbD i else a.getLsbD (i - 4) else b.getLsbD (i - 36) := by
  have h : (commandWord op a b).getLsbD i = (b ++ (a ++ op) : BitVec (32 + (32 + 4))).getLsbD i := rfl
  rw [h, BitVec.getLsbD_append, BitVec.getLsbD_append]

@[simp] theorem opField_commandWord (op : BitVec 4) (a b : Data) : opField (commandWord op a b) = op := by
  apply BitVec.eq_of_getLsbD_eq
  intro i hi
  simp only [opField, BitVec.getLsbD_extractLsb', getLsbD_commandWord, Nat.zero_add]
  simp [hi, show i < 36 by omega]

@[simp] theorem aField_commandWord (op : BitVec 4) (a b : Data) : aField (commandWord op a b) = a := by
  apply BitVec.eq_of_getLsbD_eq
  intro i hi
  simp only [aField, BitVec.getLsbD_extractLsb', getLsbD_commandWord]
  simp [hi, show 4 + i < 36 by omega]

@[simp] theorem bField_commandWord (op : BitVec 4) (a b : Data) : bField (commandWord op a b) = b := by
  apply BitVec.eq_of_getLsbD_eq
  intro i hi
  simp only [bField, BitVec.getLsbD_extractLsb', getLsbD_commandWord]
  simp [hi]

/-- A command word is the word of its fields: no bit is left out. -/
@[simp] theorem commandWord_fields (cw : CommandWord) : commandWord (opField cw) (aField cw) (bField cw) = cw := by
  apply BitVec.eq_of_getLsbD_eq
  intro i hi
  simp only [getLsbD_commandWord, opField, aField, bField, BitVec.getLsbD_extractLsb']
  by_cases h1 : i < 36 <;> by_cases h2 : i < 4
  · simp [h1, h2]
  · simp [h1, h2, show i - 4 < 32 by omega, show 4 + (i - 4) = i by omega]
  · omega
  · simp [h1, show i - 36 < 32 by omega, show 36 + (i - 36) = i by omega]

end Sys2Proof
end

