-- ==== Sys2Proof/Laws/Memory.lean ====
section
/-! SUPPORT. Colour memory: reads after writes, and that every operation keeps the canonical form. -/

namespace Sys2Proof.Machine

@[simp] theorem Memory.read_nil (a : Nat) : Memory.read [] a = none := rfl

theorem Memory.read_cons (x : Nat) (v : Byte) (m : Memory) (a : Nat) :
    Memory.read ((x, v) :: m) a = if x = a then some v else Memory.read m a := rfl

/-- Below the first listed address nothing is listed. -/
theorem Memory.read_eq_none_of_lt {m : Memory} {a : Nat} (h : ∀ x ∈ m, a < x.1) : m.read a = none := by
  induction m with
  | nil => rfl
  | cons x m ih =>
    obtain ⟨y, v⟩ := x
    have hy : a < y := h (y, v) (by simp)
    rw [Memory.read_cons, if_neg (by omega)]
    exact ih fun z hz => h z (by simp [hz])

@[simp] theorem Memory.read_write_same (m : Memory) (a : Nat) (v : Byte) : (m.write a v).read a = some v := by
  induction m with
  | nil => simp [Memory.write, Memory.read]
  | cons x m ih =>
    obtain ⟨y, w⟩ := x
    unfold Memory.write
    split_ifs with h1 h2
    · simp [Memory.read]
    · simp [Memory.read]
    · rw [Memory.read_cons, if_neg (by omega), ih]

theorem Memory.read_write_other (m : Memory) {a a' : Nat} (v : Byte) (h : a' ≠ a) :
    (m.write a v).read a' = m.read a' := by
  induction m with
  | nil => simp [Memory.write, Memory.read]; omega
  | cons x m ih =>
    obtain ⟨y, w⟩ := x
    unfold Memory.write
    split_ifs with h1 h2
    · rw [Memory.read_cons, if_neg (by omega)]
    · rw [Memory.read_cons, if_neg (by omega), Memory.read_cons, if_neg (by omega)]
    · rw [Memory.read_cons, Memory.read_cons, ih]

theorem Memory.mem_write {m : Memory} {a : Nat} {v : Byte} {x : Host.Cell} (h : x ∈ m.write a v) :
    x = (a, v) ∨ x ∈ m := by
  induction m with
  | nil => simpa [Memory.write] using h
  | cons y m ih =>
    obtain ⟨z, w⟩ := y
    unfold Memory.write at h
    split_ifs at h with h1 h2
    · simpa using h
    · rcases List.mem_cons.1 h with h | h
      · exact .inl h
      · exact .inr (by simp [h])
    · rcases List.mem_cons.1 h with h | h
      · exact .inr (by simp [h])
      · exact (ih h).imp id fun h => by simp [h]

theorem Memory.write_wf {m : Memory} (h : m.wf) (a : Nat) (v : Byte) : (m.write a v).wf := by
  induction m with
  | nil => simp [Memory.write, Memory.wf]
  | cons y m ih =>
    obtain ⟨z, w⟩ := y
    have hz : ∀ x ∈ m, z < x.1 := (List.pairwise_cons.1 h).1
    have hm : Memory.wf m := (List.pairwise_cons.1 h).2
    unfold Memory.write
    split_ifs with h1 h2
    · refine List.pairwise_cons.2 ⟨fun x hx => ?_, h⟩
      rcases List.mem_cons.1 hx with rfl | hx
      · exact h1
      · exact Nat.lt_trans h1 (hz x hx)
    · subst h2
      exact List.pairwise_cons.2 ⟨hz, hm⟩
    · refine List.pairwise_cons.2 ⟨fun x hx => ?_, ih hm⟩
      rcases Memory.mem_write hx with rfl | hx
      · show z < a
        omega
      · exact hz x hx

theorem Memory.erase_wf {m : Memory} (h : m.wf) (a : Nat) : (m.erase a).wf := List.Pairwise.filter _ h

theorem Memory.mem_erase {m : Memory} {a : Nat} {x : Host.Cell} (h : x ∈ m.erase a) : x ∈ m :=
  (List.mem_filter.1 h).1

theorem Memory.read_erase (m : Memory) (a a' : Nat) :
    (m.erase a).read a' = if a' = a then none else m.read a' := by
  induction m with
  | nil => simp [Memory.erase, Memory.read]
  | cons y m ih =>
    obtain ⟨z, w⟩ := y
    unfold Memory.erase at ih ⊢
    by_cases hz : z = a
    · subst hz
      rw [List.filter_cons_of_neg (by simp), ih, Memory.read_cons]
      split_ifs with h1 h2 <;> first | rfl | omega
    · rw [List.filter_cons_of_pos (by simpa using hz), Memory.read_cons, Memory.read_cons, ih]
      split_ifs with h1 h2 h3 <;> first | rfl | omega

theorem Memory.reclaim_wf {m : Memory} (h : m.wf) (p : Params) (k : Nat) : (Memory.reclaim p m k).wf :=
  Memory.erase_wf (Memory.erase_wf (Memory.erase_wf h _) _) _

theorem Memory.mem_reclaim {p : Params} {m : Memory} {k : Nat} {x : Host.Cell} (h : x ∈ Memory.reclaim p m k) :
    x ∈ m := Memory.mem_erase (Memory.mem_erase (Memory.mem_erase h))

theorem Memory.read_reclaim (p : Params) (m : Memory) (k : Nat) (a : Nat) :
    (Memory.reclaim p m k).read a =
      if p.base + 3 * k ≤ a ∧ a < p.base + 3 * k + 3 then none else m.read a := by
  simp only [Memory.reclaim, Memory.read_erase, cellAddress, Channel.index]
  split_ifs <;> first | rfl | omega

/-- Two channels have one address only if they are one channel of one position (20_memory R53). -/
theorem cellAddress_injective (p : Params) {k k' : Nat} {c c' : Channel}
    (h : cellAddress p k c = cellAddress p k' c') : k = k' ∧ c = c' := by
  cases c <;> cases c' <;> simp [cellAddress, Channel.index] at h ⊢ <;> omega

theorem cellAddress_range (p : Params) {k : Nat} (c : Channel) (h : k < 2 ^ p.aw) :
    p.base ≤ cellAddress p k c ∧ cellAddress p k c < p.base + 3 * 2 ^ p.aw := by
  cases c <;> simp [cellAddress, Channel.index] <;> omega

end Sys2Proof.Machine
end

