-- ==== Sys2Proof/Laws/PerInstr.lean ====
section
/-! SUPPORT. Per constructor of `Instr`: the command word it encodes to has its opcode in `CW[3:0]`, its operands above (30_encoding R71, R74). -/

namespace Sys2Proof.Laws.OpcodeRead

/-- The word of `i`, if it is a command word, decodes to the same mnemonic from its low four bits alone. -/
def Statement (i : Instr) : Prop :=
  match encode i with
  | .command cw => ∀ a b : Data, (commandOfOpcode (opField cw).toFin a b).mnemonic = i.mnemonic
  | .strobe l => l = true

theorem reserved0 (a b : Data) : Statement (.reserved0 a b) := fun _ _ => by
  rw [opField_commandWord]; rfl

theorem configure (a b : Data) : Statement (.configure a b) := fun _ _ => by
  rw [opField_commandWord]; rfl

theorem feed (a b : Data) : Statement (.feed a b) := fun _ _ => by
  rw [opField_commandWord]; rfl

theorem start (a b : Data) : Statement (.start a b) := fun _ _ => by
  rw [opField_commandWord]; rfl

theorem asyncReset (a b : Data) : Statement (.asyncReset a b) := fun _ _ => by
  rw [opField_commandWord]; rfl

theorem reserved5 (a b : Data) : Statement (.reserved5 a b) := fun _ _ => by
  rw [opField_commandWord]; rfl

theorem getTimer (a b : Data) : Statement (.getTimer a b) := fun _ _ => by
  rw [opField_commandWord]; rfl

theorem getDropped (a b : Data) : Statement (.getDropped a b) := fun _ _ => by
  rw [opField_commandWord]; rfl

theorem getPin (a b : Data) : Statement (.getPin a b) := fun _ _ => by
  rw [opField_commandWord]; rfl

theorem getT0l (a b : Data) : Statement (.getT0l a b) := fun _ _ => by
  rw [opField_commandWord]; rfl

theorem getT0h (a b : Data) : Statement (.getT0h a b) := fun _ _ => by
  rw [opField_commandWord]; rfl

theorem getT1l (a b : Data) : Statement (.getT1l a b) := fun _ _ => by
  rw [opField_commandWord]; rfl

theorem getT1h (a b : Data) : Statement (.getT1h a b) := fun _ _ => by
  rw [opField_commandWord]; rfl

theorem getTres (a b : Data) : Statement (.getTres a b) := fun _ _ => by
  rw [opField_commandWord]; rfl

theorem getStatus (a b : Data) : Statement (.getStatus a b) := fun _ _ => by
  rw [opField_commandWord]; rfl

theorem reservedF (a b : Data) : Statement (.reservedF a b) := fun _ _ => by
  rw [opField_commandWord]; rfl

theorem tick : Statement .tick := rfl

end Sys2Proof.Laws.OpcodeRead
end

