-- ==== Sys2Proof/Laws/Tick.lean ====
section
/-! SUPPORT. What TICK does, branch by branch, as record updates (41 R108 to R117). -/

namespace Sys2Proof.Machine

/-- The cursor after a high phase (41 R115). -/
theorem advanceCursor_eq (s : State) :
    advanceCursor s =
      { s with
        bit := if s.bit = 23 then 0 else s.bit + 1,
        pos := if s.bit = 23 then nextPosition s.params s.pos else s.pos } := by
  unfold advanceCursor
  split_ifs <;> rfl

theorem lowPhaseDone_eq (s : State) :
    lowPhaseDone s =
      ({ s with
          level := true, target := if s.bitval then s.tc.t1h else s.tc.t0h,
          pinTrace := withPinWrite s s.pin true }, .ok) := rfl

theorem endOfBuffer_eq (s : State) :
    endOfBuffer s =
      ({ s with
          resetting := true, startPending := false, level := false,
          pos := previousPosition s.params s.viewStart, bit := 23, counter := 0, target := s.tc.res,
          pinTrace := withPinWrite s s.pin false }, .finished) := rfl

theorem nextBit_eq (s : State) :
    nextBit s =
      ({ s with
          bitval := wireBit (colourAt s s.pos) s.bit, level := false,
          target := if wireBit (colourAt s s.pos) s.bit then s.tc.t1l else s.tc.t0l,
          pinTrace := withPinWrite s s.pin false, readTrace := withRead s s.pos, draws := s.draws + 1 }, .ok) := rfl

/-- `ReadColor` depends on colour memory, the parameters and the number of the draw only. -/
theorem colourAt_congr {s t : State} (hp : t.params = s.params) (hm : t.memory = s.memory) (hd : t.draws = s.draws)
    (k : Nat) : colourAt t k = colourAt s k := by
  simp only [colourAt, channelValue, hp, hm, hd]

theorem highPhaseDone_end {s : State} (h : (advanceCursor s).pos = s.viewEnd) :
    highPhaseDone s =
      ({ s with
          resetting := true, startPending := false, level := false,
          pos := previousPosition s.params s.viewStart, bit := 23, counter := 0, target := s.tc.res,
          pinTrace := withPinWrite s s.pin false }, .finished) := by
  rw [advanceCursor_eq] at h
  rw [highPhaseDone, advanceCursor_eq]
  exact (if_pos h).trans (endOfBuffer_eq _)

theorem highPhaseDone_next {s : State} (h : (advanceCursor s).pos ≠ s.viewEnd) :
    highPhaseDone s =
      ({ s with
          bit := (advanceCursor s).bit, pos := (advanceCursor s).pos,
          bitval := wireBit (colourAt s (advanceCursor s).pos) (advanceCursor s).bit, level := false,
          target := if wireBit (colourAt s (advanceCursor s).pos) (advanceCursor s).bit then s.tc.t1l else s.tc.t0l,
          pinTrace := withPinWrite s s.pin false, readTrace := withRead s (advanceCursor s).pos,
          draws := s.draws + 1 }, .ok) := by
  rw [advanceCursor_eq] at h ⊢
  rw [highPhaseDone, advanceCursor_eq]
  exact (if_neg h).trans (nextBit_eq _)

theorem exec_tick_locked {s : State} (h : s.lock ≠ 0) :
    exec .tick s =
      .next { s with
        dropped := (s.dropped + 1) % 2 ^ s.params.dropW, responses := withResponse s .tick .locked 0 0 } := by
  simp [exec, execTick, tickStep, h, respond, plain, withResponse]

theorem exec_tick_unconfigured {s : State} (h : s.lock = 0) (hc : s.configured = false) :
    exec .tick s = .next { s with responses := withResponse s .tick .ok 0 0 } := by
  simp [exec, execTick, tickStep, h, hc, respond, plain, withResponse]

/-- A counted tick is one `Pass` and its response (41 R111). -/
theorem exec_tick_counted {s : State} (h : s.lock = 0) (hc : s.configured = true) :
    exec .tick s = .next (respond .tick (plain (tickPass s).2) (tickPass s).1) := by
  simp [exec, execTick, tickStep, h, hc]

/-- What the transition leaves for the high-phase branch of the second pass (41 R113). -/
theorem transition_eq (s : State) :
    { transition s with counter := 0 } =
      { s with
        startPending := false, resetting := false, pos := previousPosition s.params s.viewStart, bit := 23,
        level := true, target := 1, counter := 0 } := rfl

/-- What `t` shares with `s` after a TICK from `s`: no TICK writes these (10_state R22). -/
structure TickFrame (s t : State) : Prop where
  params : t.params = s.params
  configured : t.configured = s.configured
  pin : t.pin = s.pin
  tc : t.tc = s.tc
  viewStart : t.viewStart = s.viewStart
  viewEnd : t.viewEnd = s.viewEnd
  lock : t.lock = s.lock
  fgState : t.fgState = s.fgState
  memory : t.memory = s.memory
  program : t.program = s.program
  schedule : t.schedule = s.schedule
  responses : t.responses = s.responses
  steps : t.steps = s.steps

theorem highPhaseDone_frame (s : State) : TickFrame s (highPhaseDone s).1 := by
  by_cases h : (advanceCursor s).pos = s.viewEnd
  · rw [highPhaseDone_end h]
    exact ⟨rfl, rfl, rfl, rfl, rfl, rfl, rfl, rfl, rfl, rfl, rfl, rfl, rfl⟩
  · rw [highPhaseDone_next h]
    exact ⟨rfl, rfl, rfl, rfl, rfl, rfl, rfl, rfl, rfl, rfl, rfl, rfl, rfl⟩

theorem tickPass_frame (s : State) : TickFrame s (tickPass s).1 := by
  obtain ⟨-, h⟩ | ⟨-, -, -, h⟩ | ⟨-, -, -, h⟩ | ⟨-, -, -, h⟩ | ⟨-, -, -, h⟩ := tickPass_cases s <;> rw [h]
  · exact ⟨rfl, rfl, rfl, rfl, rfl, rfl, rfl, rfl, rfl, rfl, rfl, rfl, rfl⟩
  · exact ⟨rfl, rfl, rfl, rfl, rfl, rfl, rfl, rfl, rfl, rfl, rfl, rfl, rfl⟩
  · obtain ⟨h1, h2, h3, h4, h5, h6, h7, h8, h9, h10, h11, h12, h13⟩ :=
      highPhaseDone_frame { transition s with counter := 0 }
    exact ⟨h1, h2, h3, h4, h5, h6, h7, h8, h9, h10, h11, h12, h13⟩
  · exact ⟨rfl, rfl, rfl, rfl, rfl, rfl, rfl, rfl, rfl, rfl, rfl, rfl, rfl⟩
  · obtain ⟨h1, h2, h3, h4, h5, h6, h7, h8, h9, h10, h11, h12, h13⟩ := highPhaseDone_frame { s with counter := 0 }
    exact ⟨h1, h2, h3, h4, h5, h6, h7, h8, h9, h10, h11, h12, h13⟩

theorem tickStep_frame (s : State) : TickFrame s (tickStep s).1 := by
  unfold tickStep
  split_ifs
  · exact ⟨rfl, rfl, rfl, rfl, rfl, rfl, rfl, rfl, rfl, rfl, rfl, rfl, rfl⟩
  · exact tickPass_frame s
  · exact ⟨rfl, rfl, rfl, rfl, rfl, rfl, rfl, rfl, rfl, rfl, rfl, rfl, rfl⟩

/-- What TICK does does not depend on the schedule. -/
theorem highPhaseDone_schedule (s : State) (l : List Agent) :
    highPhaseDone { s with schedule := l } = ({ (highPhaseDone s).1 with schedule := l }, (highPhaseDone s).2) := by
  have e : advanceCursor { s with schedule := l } = { advanceCursor s with schedule := l } := by
    simp only [advanceCursor_eq]
  by_cases h : (advanceCursor s).pos = s.viewEnd
  · rw [highPhaseDone_end h, highPhaseDone_end (by rw [e]; exact h)]
    rfl
  · rw [highPhaseDone_next h, highPhaseDone_next (by rw [e]; exact h), e]
    rfl

theorem tickPass_schedule (s : State) (l : List Agent) :
    tickPass { s with schedule := l } = ({ (tickPass s).1 with schedule := l }, (tickPass s).2) := by
  obtain ⟨hc, h⟩ | ⟨hc, hr, hp, h⟩ | ⟨hc, hr, hp, h⟩ | ⟨hc, hr, hl, h⟩ | ⟨hc, hr, hl, h⟩ := tickPass_cases s <;>
    rw [h]
  · exact tickPass_counting (s := { s with schedule := l }) hc
  · exact tickPass_hold (s := { s with schedule := l }) hc hr hp
  · exact (tickPass_transition (s := { s with schedule := l }) hc hr hp).trans
      (highPhaseDone_schedule { transition s with counter := 0 } l)
  · exact tickPass_low (s := { s with schedule := l }) hc hr hl
  · exact (tickPass_high (s := { s with schedule := l }) hc hr hl).trans
      (highPhaseDone_schedule { s with counter := 0 } l)

theorem tickStep_schedule (s : State) (l : List Agent) :
    tickStep { s with schedule := l } = ({ (tickStep s).1 with schedule := l }, (tickStep s).2) := by
  simp only [tickStep, tickPass_schedule]
  split_ifs <;> rfl

end Sys2Proof.Machine
end

