-- ==== Sys2Proof/Tests/Slice0.lean ====
section
/-! SUPPORT. The model's own tests. Each expected value is one of 95_test_vectors.md (its number stands in the docstring) or of the rule cited; and for each statement with hypotheses a witness that they can be met together. -/

namespace Sys2Proof.Tests

open Sys2Proof Sys2Proof.Machine Sys2Proof.Claims

/-! ### Small states -/

/-- After vector K1: CONFIGURE 5, 400000 from power-on. -/
def k1 : State :=
  { State.reset with
    configured := true, pin := 5, tc := { t0l := 2, t0h := 1, t1l := 1, t1h := 2, res := 125 }, counter := 1,
    target := 125 }

/-- Resetting, a START pending, the hold about to complete, a view of one colour (vector T6). -/
def pending : State :=
  { k1 with
    startPending := true, counter := 124, viewStart := 0x100, viewEnd := 0x101, pos := 0xFF,
    memory := [(0x300, 0), (0x301, 0), (0x302, 0)] }

/-- As `pending`, with the empty view of vector T7. -/
def pendingEmpty : State := { pending with viewStart := 0x30, viewEnd := 0x30, pos := 0x2F }

/-- Transmitting and high, one bit before the low phase of bit 6 (vector T10). -/
def sendingHigh : State :=
  { k1 with
    resetting := false, level := true, viewStart := 0x10, viewEnd := 0x11, pos := 0x10, bit := 5, counter := 0,
    target := 1, memory := [(0x30, 1), (0x31, 2), (0x32, 3)] }

/-- As `sendingHigh`, at the last bit of the view (vector T12). -/
def lastHigh : State :=
  { sendingHigh with bit := 23, startPending := true, counter := 1, target := 2 }

/-- Transmitting and low, in the low phase of a zero bit (vector T8). -/
def sendingLow : State := { sendingHigh with level := false, counter := 1, target := 2 }

/-- A guarded command in flight, BODY next. -/
def held (op : GuardedOp) (a b : Data) (s : State) : State := { s with lock := 1, fgState := .held op a b }

/-- A guarded command in flight, RELEASE next. -/
def finishing (code : ResponseCode) (s : State) : State := { s with lock := 1, fgState := .done code 0 0 }

/-- A parameter set that 00_scope R9 excludes: no width for positions. -/
def badParams : Params := { Params.default with aw := 0 }

/-- A field or several of the state an outcome goes on to. -/
def got {α : Type} (o : Host.Outcome State Fault Refusal) (f : State → α) : Option α :=
  match o with
  | .next s => some (f s)
  | .fault _ => none
  | .refused _ => none

/-- An outcome goes on, to a state of which `p` is true. -/
def goesTo (o : Host.Outcome State Fault Refusal) (p : State → Bool) : Bool :=
  match o with
  | .next s => p s
  | .fault _ => false
  | .refused _ => false

/-- The last response, without its step. -/
def answer (s : State) : Option (Port × ResponseCode × Data × Data) :=
  s.responses.getLast?.map fun r => (r.port, r.code, r.d0, r.d1)

/-! ### WellFormed (30_encoding R73, R77): what each check refuses -/

theorem test_wellFormed_accepts :
    WellFormed Params.default (.configure 5 400000) = true ∧ WellFormed Params.default (.feed 0xFFFF 1) = true ∧
      WellFormed Params.default (.start 0 0) = true ∧ WellFormed Params.default .tick = true := by decide

/-- The pin operand of vector K4 has a bit above `PIN_W`. -/
theorem test_wellFormed_refuses_wide_pin : WellFormed Params.default (.configure 0x105 400000) = false := by decide

theorem test_wellFormed_refuses_wide_period :
    WellFormed { Params.default with tpW := 16 } (.configure 5 0x10000) = false := by decide

theorem test_wellFormed_refuses_wide_position :
    WellFormed Params.default (.feed 0x10000 1) = false ∧ WellFormed Params.default (.feed 1 0x10000) = false := by
  decide

theorem test_wellFormed_refuses_operands_of_none :
    WellFormed Params.default (.start 1 0) = false ∧ WellFormed Params.default (.asyncReset 0 1) = false ∧
      WellFormed Params.default (.getTimer 1 0) = false ∧ WellFormed Params.default (.getDropped 1 0) = false ∧
      WellFormed Params.default (.getPin 0 1) = false ∧ WellFormed Params.default (.getT0l 1 0) = false ∧
      WellFormed Params.default (.getT0h 1 0) = false ∧ WellFormed Params.default (.getT1l 1 0) = false ∧
      WellFormed Params.default (.getT1h 1 0) = false ∧ WellFormed Params.default (.getTres 0 1) = false ∧
      WellFormed Params.default (.getStatus 1 0) = false ∧ WellFormed Params.default (.reserved0 1 0) = false ∧
      WellFormed Params.default (.reserved5 1 0) = false ∧ WellFormed Params.default (.reservedF 0 1) = false := by
  decide

/-! ### Decoding: words written out from 30_encoding R71 and R74, most significant bit first, `B`, `A`, `OP` -/

theorem test_decode_configure :
    decodeCommand (0b00000000000001100001101010000000#32 ++ 0b00000000000000000000000000000101#32 ++ 0b0001#4) =
      .configure 5 400000 := by decide

theorem test_decode_feed :
    decodeCommand (0b00000000000000000000000000010001#32 ++ 0b00000000000000000000000000010000#32 ++ 0b0010#4) =
      .feed 0x10 0x11 := by decide

theorem test_decode_no_operands :
    decodeCommand (0#32 ++ 0#32 ++ 0b0011#4) = .start 0 0 ∧ decodeCommand (0#32 ++ 0#32 ++ 0b0100#4) = .asyncReset 0 0 ∧
      decodeCommand (0#32 ++ 0#32 ++ 0b0110#4) = .getTimer 0 0 ∧
      decodeCommand (0#32 ++ 0#32 ++ 0b0111#4) = .getDropped 0 0 ∧
      decodeCommand (0#32 ++ 0#32 ++ 0b1000#4) = .getPin 0 0 ∧ decodeCommand (0#32 ++ 0#32 ++ 0b1001#4) = .getT0l 0 0 ∧
      decodeCommand (0#32 ++ 0#32 ++ 0b1010#4) = .getT0h 0 0 ∧ decodeCommand (0#32 ++ 0#32 ++ 0b1011#4) = .getT1l 0 0 ∧
      decodeCommand (0#32 ++ 0#32 ++ 0b1100#4) = .getT1h 0 0 ∧ decodeCommand (0#32 ++ 0#32 ++ 0b1101#4) = .getTres 0 0 ∧
      decodeCommand (0#32 ++ 0#32 ++ 0b1110#4) = .getStatus 0 0 := by decide

theorem test_decode_reserved :
    decodeCommand (1#32 ++ 2#32 ++ 0b0000#4) = .reserved0 2 1 ∧ decodeCommand (1#32 ++ 2#32 ++ 0b0101#4) = .reserved5 2 1 ∧
      decodeCommand (1#32 ++ 2#32 ++ 0b1111#4) = .reservedF 2 1 := by decide

theorem test_decode_strobe :
    decode (.strobe true) = .ok .tick ∧ decode (.strobe false) = .error .noStrobe := by decide

/-- The table words of the rows (log 16). -/
theorem test_decode_table_words :
    decodeTableWord 4 0x1 = some (.configure 0 0) ∧ decodeTableWord 8 0x6 = some (.getTimer 0 0) ∧
      decodeTableWord 72 0x00061A80000000051 = some (.configure 5 400000) ∧ decodeTableWord 1 0x1 = some .tick ∧
      decodeTableWord 1 0x0 = none := by decide

/-- 30_encoding R78: steps written separately (vector program P5). -/
theorem test_assemble_steps :
    assembleLine "CONFIGURE.acquire 9, 1000000   ; comment".toList =
      some { program := [.command 0x000F4240000000091], schedule := [.fg] } ∧
    assembleLine "CONFIGURE.body".toList = some { program := [], schedule := [.fg] } ∧
    assembleLine "TICKS 2".toList = some { program := [], schedule := [.tk, .tk] } := by decide

/-! ### One step of each command -/

/-- K1. -/
theorem test_configure_ok :
    goesTo (exec (.configure 5 400000) (held .configure 5 400000 State.reset)) (fun s =>
      s.configured && s.pin == 5 && s.tc == { t0l := 2, t0h := 1, t1l := 1, t1h := 2, res := 125 } && s.resetting &&
        !s.level && s.pos == 0xFFFF && s.bit == 23 && s.counter == 1 && s.target == 125 &&
        s.pinTrace.map PinEntry.event == [.mode 5, .write 5 false]) = true := by decide

/-- K2. -/
theorem test_configure_fail :
    got (exec (.configure 9 1000000) (held .configure 9 1000000 k1)) (fun s =>
      (s.pin, s.tc.res, s.counter, s.pinTrace, s.fgState)) = some (5, 125, 1, [], .done .fail 0 0) := by decide

/-- F2. -/
theorem test_feed_resetting :
    got (exec (.feed 0x20 0x21) (held .feed 0x20 0x21 { State.reset with viewStart := 0x10, viewEnd := 0x11 })) (fun s =>
      (s.viewStart, s.viewEnd, s.pos, s.pinTrace, s.fgState)) = some (0x20, 0x21, 0x1F, [], .done .ok 0x10 0x11) := by
  decide

/-- F4. -/
theorem test_feed_high :
    goesTo (exec (.feed 0x200 0x201) (held .feed 0x200 0x201 sendingHigh)) (fun s =>
      s.resetting && s.pos == 0x1FF && !s.level && s.counter == 1 && s.target == 125 &&
        s.pinTrace.map PinEntry.event == [.write 5 false]) = true := by decide

/-- S1 of the FEED and START table. -/
theorem test_start : got (exec (.start 0 0) State.reset) (fun s => (s.startPending, answer s)) =
    some (true, some (.command, .ok, 0, 0)) := by decide

/-- A1. -/
theorem test_asyncReset_high :
    goesTo (exec (.asyncReset 0 0) (held .asyncReset 0 0 sendingHigh)) (fun s =>
      s.resetting && !s.level && s.counter == 1 && s.target == 125 && s.pos == 0xF &&
        s.pinTrace.map PinEntry.event == [.write 5 false]) = true := by decide

/-- A2. -/
theorem test_asyncReset_low :
    got (exec (.asyncReset 0 0) (held .asyncReset 0 0 sendingLow)) (fun s =>
      (s.resetting, s.counter, s.target, s.pinTrace)) = some (true, 1, 125, []) := by decide

/-- G5. -/
theorem test_getTimer : got (exec (.getTimer 0 0) k1) answer = some (some (.command, .ok, 1, 125)) := by decide

/-- G1 and G2, at power-on. -/
theorem test_accessors_at_power_on :
    got (exec (.getStatus 0 0) State.reset) answer = some (some (.command, .ok, 1, 0)) ∧
      got (exec (.getTimer 0 0) State.reset) answer = some (some (.command, .ok, 0, 0)) := by decide

/-- 43 R147 and R149 before the first CONFIGURE: the flags and the count as they are (log 26). -/
theorem test_accessors_unconfigured :
    got (exec (.getStatus 0 0) { State.reset with startPending := true }) answer =
        some (some (.command, .ok, 3, 0)) ∧
      got (exec (.getDropped 0 0) { State.reset with dropped := 1 }) answer = some (some (.command, .ok, 1, 0)) := by
  decide

/-- 43 R149. -/
theorem test_getDropped :
    got (exec (.getDropped 0 0) { k1 with dropped := 1 }) answer = some (some (.command, .ok, 1, 0)) := by decide

/-- 43 R141. -/
theorem test_getPin : got (exec (.getPin 0 0) k1) answer = some (some (.command, .ok, 5, 0)) := by decide

/-- G6; so the four that follow. -/
theorem test_getT0l : got (exec (.getT0l 0 0) k1) answer = some (some (.command, .ok, 2, 0)) := by decide

theorem test_getT0h : got (exec (.getT0h 0 0) k1) answer = some (some (.command, .ok, 1, 0)) := by decide

theorem test_getT1l : got (exec (.getT1l 0 0) k1) answer = some (some (.command, .ok, 1, 0)) := by decide

theorem test_getT1h : got (exec (.getT1h 0 0) k1) answer = some (some (.command, .ok, 2, 0)) := by decide

theorem test_getTres : got (exec (.getTres 0 0) k1) answer = some (some (.command, .ok, 125, 0)) := by decide

/-- G4 and G8. -/
theorem test_getStatus :
    got (exec (.getStatus 0 0) k1) answer = some (some (.command, .ok, 0x9, 0)) ∧
      got (exec (.getStatus 0 0) sendingHigh) answer = some (some (.command, .ok, 0xC, 0)) := by decide

/-- 43 R142's corner case and R148's, at a `CNT_W` above 32 (00_scope R9 allows it). -/
theorem test_wide_counter :
    let wide := { k1 with params := { Params.default with cntW := 40 } }
    got (exec (.getT0l 0 0) { wide with tc := { t0l := 0, t0h := 0, t1l := 0, t1h := 0, res := 0 } }) answer =
        some (some (.command, .ok, 0, 0)) ∧
      got (exec (.getTimer 0 0) wide) answer = some (some (.command, .ok, 1, 125)) := by decide

/-- 30_encoding R75. -/
theorem test_reserved0 : got (exec (.reserved0 1 2) k1) answer = some (some (.command, .illegal, 0, 0)) := by decide

theorem test_reserved5 : got (exec (.reserved5 1 2) k1) answer = some (some (.command, .illegal, 0, 0)) := by decide

theorem test_reservedF : got (exec (.reservedF 1 2) k1) answer = some (some (.command, .illegal, 0, 0)) := by decide

/-- T10. -/
theorem test_tick_next_bit :
    goesTo (exec .tick sendingHigh) (fun s =>
      s.bit == 6 && s.bitval && !s.level && s.counter == 0 && s.target == 1 &&
        s.pinTrace.map PinEntry.event == [.write 5 false]) = true := by decide

/-- T12. -/
theorem test_tick_end_of_buffer :
    goesTo (exec .tick lastHigh) (fun s =>
      answer s == some (.tick, .finished, 0, 0) && s.resetting && !s.startPending && s.pos == 0x0F && s.bit == 23 &&
        !s.level && s.counter == 0 && s.target == 125) = true := by decide

/-- X7: the colour (0x12, 0x34, 0x56). -/
theorem test_codec : wireWord { r := 0x12, g := 0x34, b := 0x56 } = 0x341256 ∧
    (List.range 8).map (wireBit { r := 0x12, g := 0x34, b := 0x56 }) =
      [false, false, true, true, false, true, false, false] := by decide

/-- C8: a floor candidate that fails and one that holds. -/
theorem test_calibrate : calibrate Params.default 330000 =
    some { t0l := 3, t0h := 1, t1l := 1, t1h := 2, res := 152 } := by decide

/-- A reset word placed by the host is the step that follows, and reset itself has nothing placed (log 15, log 16). -/
theorem test_placed_word_runs :
    got (step (State.reset.withFetchWord 68 0x00000000000000003)) (fun s => (s.startPending, s.program, s.steps)) =
      some (true, [], 1) ∧ got (step State.reset) (fun s => s) = some State.reset := by decide

/-! ### Witnesses: the hypotheses of each statement can be met together -/

theorem witness_decode_ok : ∃ i, decode (.command 0x00061A80000000051) = .ok i := ⟨_, rfl⟩

theorem witness_opcode_bits : (0x12 : CommandWord).toNat % 16 = (0x00061A80000000052 : CommandWord).toNat % 16 := by
  decide

/-- One bit above the width, at CONFIGURE's pin and FEED's positions (vector K4). -/
theorem witness_ignored_bits :
    k1.fgState = .idle ∧ (0x105 : Data).toNat % 2 ^ k1.params.pinW = (0x05 : Data).toNat % 2 ^ k1.params.pinW ∧
      (400000 : Data).toNat % 2 ^ k1.params.tpW = (400000 : Data).toNat % 2 ^ k1.params.tpW ∧
      (0x10010 : Data).toNat % 2 ^ k1.params.aw = (0x10 : Data).toNat % 2 ^ k1.params.aw ∧
      (0xF0011 : Data).toNat % 2 ^ k1.params.aw = (0x11 : Data).toNat % 2 ^ k1.params.aw := by decide

/-- Of every statement about a command that starts from `Idle`: reserved opcodes, START, the accessors, a whole guarded
command. -/
theorem witness_idle : k1.fgState = .idle ∧ k1.params.pinW ≤ 32 ∧ k1.params.cntW ≤ 32 ∧ k1.params.dropW ≤ 32 := by
  decide

theorem invariant_sendingHigh : Invariant sendingHigh where
  params_valid := by decide
  bit_legal := by decide
  transmitting_configured := by decide
  resetting_cursor := by decide
  resetting_target := by decide
  timer_bound := by decide
  guard_free := by decide
  guard_held := by decide
  counts_bound := by decide
  unconfigured_values := by decide
  reset_count := by decide
  done_code := fun _ _ _ h => nomatch h
  widths := by decide
  memory_wf := by decide
  memory_range := by decide

theorem invariant_lastHigh : Invariant lastHigh where
  params_valid := by decide
  bit_legal := by decide
  transmitting_configured := by decide
  resetting_cursor := by decide
  resetting_target := by decide
  timer_bound := by decide
  guard_free := by decide
  guard_held := by decide
  counts_bound := by decide
  unconfigured_values := by decide
  reset_count := by decide
  done_code := fun _ _ _ h => nomatch h
  widths := by decide
  memory_wf := by decide
  memory_range := by decide

theorem invariant_finishing : Invariant (finishing .fail pending) where
  params_valid := by decide
  bit_legal := by decide
  transmitting_configured := by decide
  resetting_cursor := by decide
  resetting_target := by decide
  timer_bound := by decide
  guard_free := by decide
  guard_held := by decide
  counts_bound := by decide
  unconfigured_values := by decide
  reset_count := by decide
  done_code := fun _ _ _ h => by cases h; exact .inr rfl
  widths := by decide
  memory_wf := by decide
  memory_range := by decide

theorem invariant_held : Invariant (held .feed 1 2 sendingHigh) where
  params_valid := by decide
  bit_legal := by decide
  transmitting_configured := by decide
  resetting_cursor := by decide
  resetting_target := by decide
  timer_bound := by decide
  guard_free := by decide
  guard_held := by decide
  counts_bound := by decide
  unconfigured_values := by decide
  reset_count := by decide
  done_code := fun _ _ _ h => nomatch h
  widths := by decide
  memory_wf := by decide
  memory_range := by decide

/-- Power-on and a START: not configured yet. -/
def started : State := { State.reset with startPending := true }

theorem invariant_started : Invariant started where
  params_valid := by decide
  bit_legal := by decide
  transmitting_configured := by decide
  resetting_cursor := by decide
  resetting_target := by decide
  timer_bound := by decide
  guard_free := by decide
  guard_held := by decide
  counts_bound := by decide
  unconfigured_values := by decide
  reset_count := by decide
  done_code := fun _ _ _ h => nomatch h
  widths := by decide
  memory_wf := by decide
  memory_range := by decide

/-- FINISHED, LOCKED, FAIL, ILLEGAL: each code from a state that meets the invariant. -/
theorem witness_response_codes :
    (∃ t r, Invariant lastHigh ∧ exec .tick lastHigh = .next t ∧ t.responses = lastHigh.responses ++ [r] ∧
      r.code = .finished) ∧
    (∃ t r, Invariant (held .feed 1 2 sendingHigh) ∧ exec .tick (held .feed 1 2 sendingHigh) = .next t ∧
      t.responses = (held .feed 1 2 sendingHigh).responses ++ [r] ∧ r.code = .locked) ∧
    (∃ t r, Invariant (finishing .fail pending) ∧ exec (.configure 9 0) (finishing .fail pending) = .next t ∧
      t.responses = (finishing .fail pending).responses ++ [r] ∧ r.code = .fail) ∧
    ∃ t r, Invariant sendingHigh ∧ exec (.reserved5 0 0) sendingHigh = .next t ∧
      t.responses = sendingHigh.responses ++ [r] ∧ r.code = .illegal :=
  ⟨⟨_, { step := 0, port := .tick, code := .finished, d0 := 0, d1 := 0 }, invariant_lastHigh, rfl, by decide, rfl⟩,
    ⟨_, { step := 0, port := .tick, code := .locked, d0 := 0, d1 := 0 }, invariant_held, rfl, by decide, rfl⟩,
    ⟨_, { step := 0, port := .command, code := .fail, d0 := 0, d1 := 0 }, invariant_finishing, rfl, by decide, rfl⟩,
    ⟨_, { step := 0, port := .command, code := .illegal, d0 := 0, d1 := 0 }, invariant_sendingHigh, rfl, by decide, rfl⟩⟩

/-- A BODY that gives FAIL and one that gives OK. -/
theorem witness_bodies :
    (∃ t, exec (.configure 9 0) (held .configure 9 0 k1) = .next t ∧ t.fgState = .done .fail 0 0) ∧
      ∃ t, exec (.feed 1 2) (held .feed 1 2 k1) = .next t ∧ t.fgState = .done .ok 0 0 :=
  ⟨⟨_, rfl, by decide⟩, ⟨_, rfl, by decide⟩⟩

theorem witness_step_command :
    let s := { k1 with schedule := [.fg], program := [.command 0x00000000000000003] }
    s.params.Valid ∧ s.lock ≠ 3 ∧ s.schedule = .fg :: [] ∧ s.program = .command 0x00000000000000003 :: [] ∧
      decode (.command 0x00000000000000003) = .ok (.start 0 0) := by decide

theorem witness_step_tick :
    let s := { k1 with schedule := [.tk, .tk, .fg] }
    s.params.Valid ∧ s.lock ≠ 3 ∧ s.schedule = .tk :: [.tk, .fg] ∧ s.schedule = List.replicate 2 .tk ++ [.fg] := by
  decide

theorem witness_table_word :
    State.reset.params.Valid ∧ State.reset.lock ≠ 3 ∧ decodeTableWord 4 0x2 = some (.feed 0 0) ∧
      decodeTableWord 1 1 = some .tick := by decide

theorem witness_no_input :
    (k1.params.Valid ∧ k1.lock ≠ 3 ∧ k1.schedule = []) ∧
    (let s := { k1 with schedule := [.fg] }
     s.params.Valid ∧ s.lock ≠ 3 ∧ s.schedule = .fg :: [] ∧ s.program = []) ∧
    (let s := { held .feed 1 2 k1 with schedule := [.fgMemory], program := [.command 0x00000002000000012] }
     s.params.Valid ∧ s.lock ≠ 3 ∧ s.schedule = .fgMemory :: [] ∧ afterPort s = []) ∧
    ¬ (State.powerOn badParams).params.Valid ∧
    (let s := { k1 with lock := 3 }
     s.params.Valid ∧ s.lock = 3) := by decide

theorem witness_guard_steps :
    k1.fgState = .idle ∧ (held .feed 1 2 k1).fgState = .held .feed 1 2 ∧
      (finishing .ok k1).fgState = .done .ok 0 0 ∧ (finishing .ok k1).lock ≠ 0 := by decide

theorem witness_in_flight :
    (held .feed 1 2 k1).fgState = .held .feed 1 2 ∧ (held .feed 1 2 k1).fgState ≠ .idle ∧
      (finishing .ok k1).fgState ≠ .idle ∧ Instr.start 0 0 ≠ .tick ∧ isGuarded (.start 0 0) = false ∧
      GuardedOp.feed.instr 1 2 ≠ GuardedOp.feed.instr 1 3 := by decide

/-- Vector T2: `DROPPED` at its last value. -/
theorem witness_locked :
    let s := { held .feed 1 2 k1 with dropped := 0xFFFF }
    s.lock ≠ 0 ∧ s.dropped < 2 ^ s.params.dropW := by decide

theorem witness_whole_command : Instr.feed 1 2 ≠ .tick ∧ sendingHigh.fgState = .idle := by decide

/-- A store at the last position, and one past it. -/
theorem witness_store :
    let s := { k1 with schedule := [.fg], program := [.store 0xFFFF .blue 7] }
    let u := { k1 with schedule := [.fg], program := [.store 0x10000 .red 7] }
    s.params.Valid ∧ s.lock ≠ 3 ∧ s.schedule = .fg :: [] ∧ s.program = .store 0xFFFF .blue 7 :: [] ∧
      0xFFFF < 2 ^ s.params.aw ∧ u.program = .store 0x10000 .red 7 :: [] ∧ 2 ^ u.params.aw ≤ 0x10000 := by decide

theorem witness_reclaim :
    let s := { sendingHigh with schedule := [.fg], program := [.reclaim 0x10] }
    let u := { sendingHigh with schedule := [.fg], program := [.reclaim 0x10000] }
    s.params.Valid ∧ s.lock ≠ 3 ∧ s.schedule = .fg :: [] ∧ s.program = .reclaim 0x10 :: [] ∧
      0x10 < 2 ^ s.params.aw ∧ s.memory.wf ∧ u.program = .reclaim 0x10000 :: [] ∧ 2 ^ u.params.aw ≤ 0x10000 := by decide

/-- A window open, and a store or a reclaim next: at the last position, and one past it; and with no command in flight. -/
theorem witness_store_in_window :
    (let s := { held .feed 1 2 k1 with
       schedule := [.fgMemory], program := [.command 0x00000002000000012, .store 0xFFFF .blue 7] }
     s.params.Valid ∧ s.lock ≠ 3 ∧ s.schedule = .fgMemory :: [] ∧ s.fgState ≠ .idle ∧
       s.program = .command 0x00000002000000012 :: .store 0xFFFF .blue 7 :: [] ∧ 0xFFFF < 2 ^ s.params.aw ∧
       2 ^ s.params.aw ≤ 0x10000) ∧
    (let s := { finishing .ok k1 with
       schedule := [.fgMemory], program := [.command 0x00000002000000012, .reclaim 0xFFFF] }
     s.params.Valid ∧ s.lock ≠ 3 ∧ s.schedule = .fgMemory :: [] ∧ s.fgState ≠ .idle ∧
       s.program = .command 0x00000002000000012 :: .reclaim 0xFFFF :: [] ∧ 0xFFFF < 2 ^ s.params.aw ∧
       2 ^ s.params.aw ≤ 0x10000) ∧
    (let s := { k1 with schedule := [.fgMemory], program := [.store 0 .red 1] }
     s.params.Valid ∧ s.lock ≠ 3 ∧ s.schedule = .fgMemory :: [] ∧ s.fgState = .idle ∧
       s.program = .store 0 .red 1 :: []) := by decide

/-- A position whose channels are all stored, one with none, and one with green alone. -/
theorem witness_read_colour :
    sendingHigh.memory.read (sendingHigh.params.base + 3 * 0x10) = some 1 ∧
      sendingHigh.memory.read (sendingHigh.params.base + 3 * 0x10 + 1) = some 2 ∧
      sendingHigh.memory.read (sendingHigh.params.base + 3 * 0x10 + 2) = some 3 ∧
      sendingHigh.memory.read (sendingHigh.params.base + 3 * 0x11) = none ∧
      sendingHigh.memory.read (sendingHigh.params.base + 3 * 0x11 + 1) = none ∧
      sendingHigh.memory.read (sendingHigh.params.base + 3 * 0x11 + 2) = none ∧
      (let s := { sendingHigh with memory := [(0x34, 9)] }
       s.memory.read (s.params.base + 3 * 0x11) = none ∧ s.memory.read (s.params.base + 3 * 0x11 + 1) = some 9 ∧
         s.memory.read (s.params.base + 3 * 0x11 + 2) = none) := by decide

/-- Also for the statements over every command that goes on: a TICK that reads. -/
theorem witness_tick_reads : ∃ t, exec .tick sendingHigh = .next t ∧ t.readTrace = withRead sendingHigh 0x10 :=
  ⟨_, rfl, rfl⟩

/-- For the same statements, a command that writes nothing and one that is guarded. -/
theorem witness_goes_on :
    (∃ t, exec (.getPin 0 0) k1 = .next t ∧ Instr.getPin 0 0 ≠ .tick ∧ isGuarded (.getPin 0 0) = false ∧
      WritesNothing (.getPin 0 0) = true) ∧
    ∃ t, exec (.asyncReset 0 0) (held .asyncReset 0 0 sendingHigh) = .next t := ⟨⟨_, rfl, by decide⟩, ⟨_, rfl⟩⟩

theorem witness_valid : Params.default.Valid := by decide

theorem witness_invariant_step :
    ∃ t, Invariant (held .feed 1 2 sendingHigh) ∧ step (held .feed 1 2 sendingHigh) = .next t :=
  ⟨_, invariant_held, rfl⟩

/-- The three states of the command port. -/
theorem witness_never_halts :
    (Invariant sendingHigh ∧ PortAgrees sendingHigh ∧ StoresInRange sendingHigh) ∧
    (let s := { held .feed 1 2 sendingHigh with program := [.command 0x00000002000000012, .store 0xFFFF .red 1] }
     Invariant s ∧ PortAgrees s ∧ StoresInRange s) ∧
    (let s := { finishing .fail pending with program := [.command 0x00000000000000091] }
     Invariant s ∧ PortAgrees s ∧ StoresInRange s) := by
  refine ⟨⟨invariant_sendingHigh, trivial, fun _ h => nomatch h⟩, ⟨?_, ⟨_, _, rfl, by decide⟩, ?_⟩,
    ⟨?_, ⟨_, _, rfl, by decide⟩, ?_⟩⟩
  · exact { invariant_held with }
  · intro act h
    rcases List.mem_cons.1 h with rfl | h
    · trivial
    · rw [List.mem_singleton.1 h]
      decide
  · exact { invariant_finishing with }
  · intro act h
    rw [List.mem_singleton.1 h]
    trivial

/-- The step in which the configuration changes. -/
theorem witness_configuration :
    let s := { held .configure 7 50000 sendingHigh with schedule := [.fg], program := [.command 0x0000C350000000071] }
    ∃ t, step s = .next t ∧ t.configured = true ∧ t.pin = 7 := ⟨_, rfl, rfl, rfl⟩

theorem witness_pin_writes : ∃ t, exec .tick lastHigh = .next t ∧ t.level ≠ lastHigh.level := ⟨_, rfl, by decide⟩

/-- Before the first CONFIGURE, with a START given, and after it. -/
theorem witness_accessors :
    (Invariant started ∧ started.fgState = .idle ∧ started.configured = false ∧ started.dropped = 0 ∧
      started.startPending = true) ∧
      Invariant sendingHigh ∧ sendingHigh.fgState = .idle ∧ sendingHigh.configured = true :=
  ⟨⟨invariant_started, rfl, rfl, rfl, rfl⟩, invariant_sendingHigh, rfl, rfl⟩

/-- 95_test_vectors C10 for the first two properties and C14 for the third. -/
theorem witness_calibration :
    calibrate Params.default 400000 = some { t0l := 2, t0h := 1, t1l := 1, t1h := 2, res := 125 } ∧
    0 < 400000 ∧ QuantisesTo Params.default Params.default.nomT0l 400000 2 ∧
    QuantisesTo Params.default Params.default.nomT0h 400000 1 ∧
    QuantisesTo Params.default Params.default.nomT1l 400000 1 ∧
    QuantisesTo Params.default Params.default.nomT1h 400000 2 ∧ 2 ≤ Params.default.cntMax ∧
    (Params.default.nomRes + 400000 - 1) / 400000 ≤ Params.default.cntMax ∧
    ∀ k, ¬ QuantisesTo Params.default Params.default.nomT0h 1000000 k := by
  refine ⟨by decide, by decide, .inl ⟨by unfold WithinTolerance; decide, by decide⟩,
    .inl ⟨by unfold WithinTolerance; decide, by decide⟩, .inl ⟨by unfold WithinTolerance; decide, by decide⟩,
    .inl ⟨by unfold WithinTolerance; decide, by decide⟩, by decide, by decide, ?_⟩
  rintro k (⟨h, -⟩ | ⟨-, h, -⟩)
  · exact absurd h (by unfold WithinTolerance; decide)
  · exact absurd h (by unfold WithinTolerance; decide)

theorem witness_configure_body :
    let s := held .configure 5 400000 k1
    let u := held .configure 5 0 k1
    (s.fgState = .held .configure 5 400000 ∧
      calibrate s.params ((400000 : Data).toNat % 2 ^ s.params.tpW) =
        some { t0l := 2, t0h := 1, t1l := 1, t1h := 2, res := 125 }) ∧
    (u.fgState = .held .configure 5 0 ∧ calibrate u.params ((0 : Data).toNat % 2 ^ u.params.tpW) = none) := by decide

/-- Vector K5: the old pin 5 is high, the new one is 7. -/
theorem witness_old_pin :
    sendingHigh.fgState = .idle ∧ (5 : Nat) ≠ (7 : Data).toNat % 2 ^ sendingHigh.params.pinW ∧
      calibrate sendingHigh.params ((50000 : Data).toNat % 2 ^ sendingHigh.params.tpW) ≠ none ∧
      calibrate sendingHigh.params ((500000 : Data).toNat % 2 ^ sendingHigh.params.tpW) = none := by decide

theorem witness_codec_index : (0 : Nat) < 8 ∧ (7 : Nat) < 8 := by decide

theorem witness_unconfigured : State.reset.lock = 0 ∧ State.reset.configured = false := by decide

/-- The last tick that only counts, and the one that completes. -/
theorem witness_counted :
    (let s := { k1 with counter := 123 }
     s.lock = 0 ∧ s.configured = true ∧ s.counter + 1 < s.target) ∧
    (let s := { k1 with counter := 124 }
     s.lock = 0 ∧ s.configured = true ∧ s.target ≤ s.counter + 1) := by decide

/-- T5, T6, T7. -/
theorem witness_completion_resetting :
    (let s := { k1 with counter := 124 }
     CompletesNow s ∧ s.resetting = true ∧ s.viewStart < 2 ^ s.params.aw ∧ s.startPending = false) ∧
    (CompletesNow pending ∧ pending.resetting = true ∧ pending.viewStart < 2 ^ pending.params.aw ∧
      pending.startPending = true ∧ pending.viewStart ≠ pending.viewEnd) ∧
    (CompletesNow pendingEmpty ∧ pendingEmpty.resetting = true ∧
      pendingEmpty.viewStart < 2 ^ pendingEmpty.params.aw ∧ pendingEmpty.startPending = true ∧
      pendingEmpty.viewStart = pendingEmpty.viewEnd) := by
  unfold CompletesNow
  decide

theorem witness_low_phase :
    CompletesNow sendingLow ∧ sendingLow.resetting = false ∧ sendingLow.level = false := by
  unfold CompletesNow
  decide

/-- T10 within a colour, and T13 with `POS` going from `POS_MASK` to 0. -/
theorem witness_next_bit :
    (CompletesNow sendingHigh ∧ sendingHigh.resetting = false ∧ sendingHigh.level = true ∧
      advancedPos sendingHigh ≠ sendingHigh.viewEnd) ∧
    (let s := { sendingHigh with pos := 0xFFFF, bit := 23, viewStart := 0xFFFF, viewEnd := 1 }
     CompletesNow s ∧ s.resetting = false ∧ s.level = true ∧ advancedPos s ≠ s.viewEnd ∧ advancedPos s = 0) := by
  unfold CompletesNow
  decide

/-- T12 and T7; and the response FINISHED is given. -/
theorem witness_end_of_buffer :
    (lastHigh.viewStart < 2 ^ lastHigh.params.aw ∧ EndsBufferNow lastHigh) ∧
    (pendingEmpty.viewStart < 2 ^ pendingEmpty.params.aw ∧ EndsBufferNow pendingEmpty) ∧
    ∃ t, exec .tick lastHigh = .next t ∧ t.responses = withResponse lastHigh .tick .finished 0 0 := by
  refine ⟨?_, ?_, ⟨_, rfl, by decide⟩⟩ <;> unfold EndsBufferNow CompletesNow <;> decide

/-- A symbol with one tick left to count, and one past its target (vectors T4, T15). -/
theorem witness_symbol :
    (let s := { k1 with counter := 123 }
     s.lock = 0 ∧ s.configured = true ∧ 1 < max 1 (s.target - s.counter)) ∧
    (let s := { k1 with counter := 5, target := 3 }
     s.lock = 0 ∧ s.configured = true ∧ 0 < max 1 (s.target - s.counter)) := by decide

/-- A view of one colour with its storage valid, and the empty view. -/
theorem witness_frame :
    (CompletesNow pending ∧ pending.resetting = true ∧ pending.startPending = true ∧
      pending.viewStart < 2 ^ pending.params.aw ∧ pending.viewEnd < 2 ^ pending.params.aw ∧ viewSize pending = 1 ∧
      ∀ k ∈ viewPositions pending, ∀ c, (pending.memory.read (cellAddress pending.params k c)).isSome = true) ∧
    (CompletesNow pendingEmpty ∧ pendingEmpty.resetting = true ∧ pendingEmpty.startPending = true ∧
      pendingEmpty.viewStart < 2 ^ pendingEmpty.params.aw ∧ pendingEmpty.viewEnd < 2 ^ pendingEmpty.params.aw ∧
      viewSize pendingEmpty = 0 ∧
      ∀ k ∈ viewPositions pendingEmpty, ∀ c,
        (pendingEmpty.memory.read (cellAddress pendingEmpty.params k c)).isSome = true) := by
  unfold CompletesNow
  refine ⟨⟨by decide, rfl, rfl, by decide, by decide, by decide, fun k h c => ?_⟩,
    ⟨by decide, rfl, rfl, by decide, by decide, by decide, fun k h c => ?_⟩⟩
  · have e : viewPositions pending = [0x100] := by decide
    rw [e] at h
    rw [List.mem_singleton.1 h]
    cases c <;> decide
  · have e : viewPositions pendingEmpty = [] := by decide
    rw [e] at h
    exact nomatch h

/-- F2, F4, F3. -/
theorem witness_feed_body :
    (let s := held .feed 0x200 0x201 k1
     s.fgState = .held .feed 0x200 0x201 ∧ s.params.aw ≤ 32 ∧ s.resetting = true) ∧
    (let s := held .feed 0x200 0x201 sendingHigh
     s.fgState = .held .feed 0x200 0x201 ∧ s.params.aw ≤ 32 ∧ s.resetting = false ∧ s.level = true) ∧
    (let s := held .feed 0x200 0x201 sendingLow
     s.fgState = .held .feed 0x200 0x201 ∧ s.params.aw ≤ 32 ∧ s.resetting = false ∧ s.level = false) := by decide

/-- FEED's BODY; a TICK of the hold, one that reads; a step that gives another view, and one that reads. -/
theorem witness_previous_view :
    (∃ t, (held .feed 0x200 0x201 sendingHigh).fgState = .held .feed 0x200 0x201 ∧
      exec (.feed 0x200 0x201) (held .feed 0x200 0x201 sendingHigh) = .next t) ∧
    (∃ t, k1.resetting = true ∧ k1.viewStart < 2 ^ k1.params.aw ∧ exec .tick k1 = .next t ∧ t.readTrace = k1.readTrace) ∧
    (∃ t, pending.resetting = true ∧ pending.viewStart < 2 ^ pending.params.aw ∧ exec .tick pending = .next t ∧
      t.readTrace = withRead pending 0x100) ∧
    (let s := { held .feed 0x20 0x21 k1 with schedule := [.fg], program := [.command 0x00000021000000202] }
     ∃ t, s.resetting = true ∧ s.viewStart < 2 ^ s.params.aw ∧ step s = .next t ∧ t.viewStart = 0x20) ∧
    (let s := { pending with schedule := [.tk] }
     ∃ t, s.resetting = true ∧ s.viewStart < 2 ^ s.params.aw ∧ step s = .next t ∧
       t.readTrace = withRead s 0x100) :=
  ⟨⟨_, rfl, rfl⟩, ⟨_, rfl, by decide, rfl, rfl⟩, ⟨_, rfl, by decide, rfl, rfl⟩, ⟨_, rfl, by decide, rfl, rfl⟩,
    ⟨_, rfl, by decide, rfl, rfl⟩⟩

/-- A4, A1, A2. -/
theorem witness_asyncReset_body :
    (let s := held .asyncReset 0 0 k1
     s.fgState = .held .asyncReset 0 0 ∧ s.resetting = true) ∧
    (let s := held .asyncReset 0 0 sendingHigh
     s.fgState = .held .asyncReset 0 0 ∧ s.resetting = false ∧ s.level = true) ∧
    (let s := held .asyncReset 0 0 sendingLow
     s.fgState = .held .asyncReset 0 0 ∧ s.resetting = false ∧ s.level = false) := by decide

/-- A3. -/
theorem witness_asyncReset_twice : sendingLow.fgState = .idle ∧ sendingLow.level = false := by decide

theorem witness_asyncReset_high :
    sendingHigh.fgState = .idle ∧ sendingHigh.lock = 0 ∧ sendingHigh.configured = true ∧
      sendingHigh.resetting = false ∧ sendingHigh.level = true ∧ 123 < max 1 (sendingHigh.tc.res - 1) := by decide

theorem witness_asyncReset_low :
    sendingLow.fgState = .idle ∧ sendingLow.lock = 0 ∧ sendingLow.configured = true ∧
      sendingLow.resetting = false ∧ sendingLow.level = false ∧
      123 < max 1 (sendingLow.tc.res - sendingLow.counter) := by decide

end Sys2Proof.Tests
end

/-! PROOFS. The reserved opcodes (30_encoding R75). -/

namespace Sys2Proof.Machine

/-- All three reserved opcodes are one operation: the unguarded step around `illegalBody`. -/
theorem exec_reserved {i : Instr} {a b : Data} (h : i = .reserved0 a b ∨ i = .reserved5 a b ∨ i = .reservedF a b)
    (s : State) : exec i s = unguarded illegalBody s := by
  rcases h with rfl | rfl | rfl
  · rfl
  · rfl
  · rfl

/-- Settles O7: from `Idle` an unguarded step runs its body and responds, and `illegalBody` leaves the state alone. -/
theorem reservedOpcodesRespondIllegal : Obligations.ReservedOpcodesRespondIllegal := by
  intro s a b i hi hidle
  calc exec i s
      = unguarded illegalBody s := exec_reserved hi s
    _ = .next (respond .command (plain .illegal) s) := unguarded_idle hidle
    _ = .next { s with responses := withResponse s .command .illegal 0 0 } := rfl

end Sys2Proof.Machine

/-! PROOFS. The calibrator (40 R90 to R95) and CONFIGURE (40 R97 to R99). -/

namespace Sys2Proof.Machine

open Sys2Proof.Claims

/-! ### The calibrator -/

/-- The naturals' `absDiff` against `TOL` is the tolerance of R91 on integers. -/
theorem absDiff_le_tol_iff (p : Params) (q d : Nat) : absDiff q d ≤ p.tol ↔ WithinTolerance p q d := by
  unfold absDiff WithinTolerance
  rw [abs_le]
  split_ifs with h
  · omega
  · omega

/-- `Quant` gives exactly the candidate of R91. -/
theorem quant_eq_some_iff (p : Params) (d tp k : Nat) : quant p d tp = some k ↔ QuantisesTo p d tp k := by
  simp only [QuantisesTo, ← absDiff_le_tol_iff]
  unfold quant
  dsimp only
  split_ifs with h0 h1
  · simp [h0, eq_comm]
  · simp [h0, h1, eq_comm]
  · simp [h0, h1]

/-- `Calibrate` by the four results of `Quant`, the reset count and the common bound of R95. -/
theorem calibrate_eq_some_iff (p : Params) (tp : Nat) (c : TickCounts) :
    calibrate p tp = some c ↔
      0 < tp ∧ quant p p.nomT0l tp = some c.t0l ∧ quant p p.nomT0h tp = some c.t0h ∧
        quant p p.nomT1l tp = some c.t1l ∧ quant p p.nomT1h tp = some c.t1h ∧
        c.res = ceilDiv p.nomRes tp ∧ max (max (max c.t0l c.t0h) (max c.t1l c.t1h)) c.res ≤ p.cntMax := by
  constructor
  · intro h
    unfold calibrate at h
    split_ifs at h with htp
    split at h
    next h0l h0h h1l h1h =>
      dsimp only at h
      split_ifs at h with hmax
      obtain rfl := Option.some.inj h
      exact ⟨Nat.pos_of_ne_zero htp, h0l, h0h, h1l, h1h, rfl, Nat.le_of_not_gt hmax⟩
    next => cases h
  · rintro ⟨htp, h0l, h0h, h1l, h1h, hres, hmax⟩
    simp only [calibrate, if_neg htp.ne', h0l, h0h, h1l, h1h, ← hres]
    exact if_neg (Nat.not_lt.2 hmax)

/-! ### CONFIGURE's BODY -/

/-- In `Held`, a CONFIGURE runs its BODY (20_memory R58). -/
theorem exec_configure_held {s : State} {a b : Data} (h : s.fgState = .held .configure a b) :
    exec (.configure a b) s = .next (runBody (configureBody a b) s) :=
  guarded_held h

/-! ### The wire level after a trace (10_state R40) -/

/-- The later part of a trace decides, if it writes the pin at all. -/
theorem wireLevel_append (p : Nat) (xs ys : List PinEntry) :
    wireLevel p (xs ++ ys) = (wireLevel p ys).or (wireLevel p xs) := by
  induction xs with
  | nil => simp [wireLevel]
  | cons x xs ih =>
    rw [List.cons_append, wireLevel, wireLevel, ih]
    cases wireLevel p ys with
    | none => rfl
    | some l => rfl

/-- A trace that never writes a pin gives it no level. -/
theorem wireLevel_eq_none {p : Nat} {evs : List PinEntry} (h : ∀ e ∈ evs, ∀ l, e.event ≠ .write p l) :
    wireLevel p evs = none := by
  induction evs with
  | nil => rfl
  | cons e rest ih =>
    obtain ⟨he, hrest⟩ := List.forall_mem_cons.1 h
    rw [wireLevel, ih hrest]
    cases hev : e.event with
    | mode q => rfl
    | write q l => exact if_neg fun hq => he l (by rw [hev, hq])

/-- Modes and low writes of one pin leave the level of every other pin as it was. -/
theorem wireLevel_append_other_pin {p q : Nat} {xs evs : List PinEntry} (hpq : p ≠ q)
    (h : ∀ e ∈ evs, e.event = .mode q ∨ e.event = .write q false) :
    wireLevel p (xs ++ evs) = wireLevel p xs := by
  rw [wireLevel_append, wireLevel_eq_none, Option.none_or]
  intro e he l hl
  rcases h e he with hq | hq
  · exact PinEvent.noConfusion (hl.symm.trans hq)
  · exact hpq (PinEvent.write.inj (hl.symm.trans hq)).1

/-! ### A whole CONFIGURE -/

/-- The two pin events of a CONFIGURE that succeeds: output mode, then the forced low (40 R97). -/
def bindPinEvents (s : State) (pin : Nat) : List PinEntry :=
  [{ step := s.steps, event := .mode pin }, { step := s.steps, event := .write pin false }]

theorem bindPin_pinTrace (pin : Nat) (c : TickCounts) (s : State) :
    (bindPin pin c s).pinTrace = s.pinTrace ++ bindPinEvents s pin := by
  rw [bindPin_eq, bindPinEvents]

theorem bindPinEvents_event {s : State} {pin : Nat} :
    ∀ e ∈ bindPinEvents s pin, e.event = .mode pin ∨ e.event = .write pin false := by
  simp [bindPinEvents]

/-- After the two events the new pin is low (40 R99). -/
theorem wireLevel_append_bindPinEvents (s : State) (pin : Nat) (xs : List PinEntry) :
    wireLevel pin (xs ++ bindPinEvents s pin) = some false := by
  simp [wireLevel_append, bindPinEvents, wireLevel]

/-- ACQUIRE and RELEASE issue no pin event: the trace of a whole CONFIGURE is that of its BODY. -/
theorem alone_configure_pinTrace {s : State} (a b : Data) (h : s.fgState = .idle) :
    ∃ t, alone (.configure a b) s = .next t ∧
      t.pinTrace = (configureBody a b (acquire .configure a b s)).1.pinTrace :=
  ⟨_, alone_configure h, rfl⟩

theorem alone_configure_ok_pinTrace {s : State} {a b : Data} {c : TickCounts} (h : s.fgState = .idle)
    (hc : calibrate s.params (periodOperand s.params b) = some c) :
    ∃ t, alone (.configure a b) s = .next t ∧
      t.pinTrace = s.pinTrace ++ bindPinEvents s (pinOperand s.params a) := by
  obtain ⟨t, ht, htrace⟩ := alone_configure_pinTrace a b h
  exact ⟨t, ht, by rw [htrace, configureBody_ok (s := acquire .configure a b s) hc, bindPin_pinTrace]; rfl⟩

theorem alone_configure_fail_pinTrace {s : State} {a b : Data} (h : s.fgState = .idle)
    (hc : calibrate s.params (periodOperand s.params b) = none) :
    ∃ t, alone (.configure a b) s = .next t ∧ t.pinTrace = s.pinTrace := by
  obtain ⟨t, ht, htrace⟩ := alone_configure_pinTrace a b h
  exact ⟨t, ht, by rw [htrace, configureBody_fail (s := acquire .configure a b s) hc, acquire_pinTrace]⟩

end Sys2Proof.Machine

namespace Sys2Proof.Claims

open Sys2Proof.Machine

/-- Settles O30: `Quant` is the relation of R91, and the maximum of the counts is bounded when each of them is. -/
theorem calibrationIsExact : Obligations.CalibrationIsExact := by
  intro p tp c
  simp only [calibrate_eq_some_iff, quant_eq_some_iff, ceilDiv, Params.cntMax, max_le_iff, and_assoc]

/-- Settles O33: the BODY in flight runs, and calibration chooses between `bindPin` and FAIL. -/
theorem configureBody : Obligations.ConfigureBody := by
  intro s a b hheld
  rw [exec_configure_held hheld]
  refine ⟨fun c hc => ?_, fun hfail => ?_⟩
  · rw [runBody, configureBody_ok hc, bindPin_eq]
    rfl
  · rw [runBody, configureBody_fail hfail]
    rfl

/-- Settles O34: the events added are `bindPinEvents` of the new pin, or none, as calibration succeeds or fails. -/
theorem configureLeavesTheOldPin : Obligations.ConfigureLeavesTheOldPin := by
  intro s a b hidle
  cases hc : calibrate s.params (b.toNat % 2 ^ s.params.tpW) with
  | none =>
    obtain ⟨t, ht, htrace⟩ := alone_configure_fail_pinTrace (a := a) hidle hc
    exact ⟨t, [], ht, by simp [htrace], by simp, fun p _ => by rw [htrace], by simp, by simp⟩
  | some c =>
    obtain ⟨t, ht, htrace⟩ := alone_configure_ok_pinTrace (a := a) hidle hc
    refine ⟨t, bindPinEvents s (pinOperand s.params a), ht, htrace, bindPinEvents_event, fun p hp => ?_,
      fun _ => ?_, by simp⟩
    · exact htrace ▸ wireLevel_append_other_pin hp bindPinEvents_event
    · exact htrace ▸ wireLevel_append_bindPinEvents s _ s.pinTrace

end Sys2Proof.Claims

/-! PROOFS. The codec, TICK, and FEED's and START's effects (41 R105 to R124). -/

namespace Sys2Proof.Machine

open Sys2Proof.Claims

/-! ### The codec (41 R105, R106) -/

theorem wireWord_toNat (c : Colour) :
    (wireWord c).toNat = c.g.toNat * 2 ^ 16 + c.r.toNat * 2 ^ 8 + c.b.toNat := by
  have hrb : c.r.toNat <<< 8 ||| c.b.toNat = c.r.toNat <<< 8 + c.b.toNat :=
    (Nat.shiftLeft_add_eq_or_of_lt c.b.isLt _).symm
  have hlow : c.r.toNat <<< 8 + c.b.toNat < 2 ^ 16 := by
    rw [Nat.shiftLeft_eq]
    omega
  rw [wireWord, BitVec.toNat_append, BitVec.toNat_append, hrb, ← Nat.shiftLeft_add_eq_or_of_lt hlow,
    Nat.shiftLeft_eq, Nat.shiftLeft_eq, Nat.add_assoc]

/-- The wire word by channel: blue lowest, then red, then green. -/
theorem getLsbD_wireWord (c : Colour) (k : Nat) :
    (wireWord c).getLsbD k =
      if k < 16 then if k < 8 then c.b.getLsbD k else c.r.getLsbD (k - 8) else c.g.getLsbD (k - 16) := by
  rw [wireWord, BitVec.getLsbD_append, BitVec.getLsbD_append]

/-- Inside the word, the wire bit is the word's, most significant bit first. -/
theorem wireBit_eq (c : Colour) {i : Nat} (h : i ≤ 23) : wireBit c i = (wireWord c).getLsbD (23 - i) := if_pos h

theorem wireBit_green (c : Colour) {j : Nat} (h : j < 8) : wireBit c j = c.g.getLsbD (7 - j) := by
  rw [wireBit_eq c (by omega), getLsbD_wireWord, if_neg (by omega), show 23 - j - 16 = 7 - j by omega]

theorem wireBit_red (c : Colour) {j : Nat} (h : j < 8) : wireBit c (8 + j) = c.r.getLsbD (7 - j) := by
  rw [wireBit_eq c (by omega), getLsbD_wireWord, if_pos (by omega), if_neg (by omega),
    show 23 - (8 + j) - 8 = 7 - j by omega]

theorem wireBit_blue (c : Colour) {j : Nat} (h : j < 8) : wireBit c (16 + j) = c.b.getLsbD (7 - j) := by
  rw [wireBit_eq c (by omega), getLsbD_wireWord, if_pos (by omega), if_pos (by omega),
    show 23 - (16 + j) = 7 - j by omega]

/-! ### The advanced cursor (41 R115) -/

theorem advanceCursor_pos (s : State) : (advanceCursor s).pos = advancedPos s := by
  rw [advanceCursor_eq]
  rfl

theorem advanceCursor_bit (s : State) : (advanceCursor s).bit = advancedBit s := by
  rw [advanceCursor_eq]
  rfl

/-- After the transition the cursor advances to the start of the view (41 R113). -/
theorem advancedPos_transition {s : State} (h : s.viewStart < 2 ^ s.params.aw) :
    advancedPos { transition s with counter := 0 } = s.viewStart :=
  (if_pos rfl).trans (nextPosition_previousPosition h)

theorem advancedBit_transition (s : State) : advancedBit { transition s with counter := 0 } = 0 := if_pos rfl

/-- A high phase that ends before the end of the view starts the bit at the advanced cursor (41 R117). -/
theorem highPhaseDone_advanced {s : State} (h : advancedPos s ≠ s.viewEnd) :
    highPhaseDone s =
      ({ s with
          bit := advancedBit s, pos := advancedPos s,
          bitval := wireBit (colourAt s (advancedPos s)) (advancedBit s), level := false,
          target := lowCount s.tc (wireBit (colourAt s (advancedPos s)) (advancedBit s)),
          pinTrace := withPinWrite s s.pin false, readTrace := withRead s (advancedPos s),
          draws := s.draws + 1 }, .ok) := by
  simp only [highPhaseDone_next ((advanceCursor_pos s).trans_ne h), advanceCursor_pos, advanceCursor_bit, lowCount]

/-- Of the two ends of a high phase, only the end of the buffer answers FINISHED. -/
theorem highPhaseDone_finished {s : State} (h : (highPhaseDone s).2 = .finished) : advancedPos s = s.viewEnd := by
  by_contra hne
  rw [highPhaseDone_advanced hne] at h
  cases h

/-! ### A completing TICK (41 R112) -/

theorem target_le_of_completesNow {s : State} (h : CompletesNow s) : s.target ≤ s.counter + 1 := h.2.2

/-- A completing TICK is one pass and the response of the code that the pass gives. -/
theorem exec_tick_completes {s u : State} {code : ResponseCode} (h : CompletesNow s) (hpass : tickPass s = (u, code)) :
    exec .tick s = .next (respond .tick (plain code) u) := by
  obtain ⟨hlock, hconf, -⟩ := h
  rw [exec_tick_counted hlock hconf, hpass]

/-- Both entries to the end of the buffer take the high-phase branch: a frame's last bit in the first pass, an empty
view's transition in the second (41 R113, R116). -/
theorem tickPass_endsBuffer {s : State} (hv : s.viewStart < 2 ^ s.params.aw) (h : EndsBufferNow s) :
    tickPass s =
      ({ s with
          resetting := true, startPending := false, level := false,
          pos := previousPosition s.params s.viewStart, bit := 23, counter := 0, target := s.tc.res,
          pinTrace := withPinWrite s s.pin false }, .finished) := by
  obtain ⟨hc, ⟨hr, hl, hend⟩ | ⟨hr, hp, hempty⟩⟩ := h
  · rw [tickPass_high (target_le_of_completesNow hc) hr hl]
    exact highPhaseDone_end ((advanceCursor_pos _).trans hend)
  · rw [tickPass_transition (target_le_of_completesNow hc) hr hp]
    exact highPhaseDone_end ((advanceCursor_pos _).trans ((advancedPos_transition hv).trans hempty))

theorem exec_tick_endsBuffer {s : State} (hv : s.viewStart < 2 ^ s.params.aw) (h : EndsBufferNow s) :
    exec .tick s =
      .next { s with
        resetting := true, startPending := false, level := false,
        pos := previousPosition s.params s.viewStart, bit := 23, counter := 0, target := s.tc.res,
        pinTrace := withPinWrite s s.pin false, responses := withResponse s .tick .finished 0 0 } :=
  exec_tick_completes h.1 (tickPass_endsBuffer hv h)

/-- The response of a TICK has the code that its step gives. -/
theorem tickStep_code_of_responses {s t : State} {code : ResponseCode} (h : exec .tick s = .next t)
    (hrs : t.responses = withResponse s .tick code 0 0) : (tickStep s).2 = code := by
  obtain rfl := Host.Outcome.next.inj h
  rw [respond_responses, (tickStep_frame s).responses, withResponse] at hrs
  exact congrArg Response.code (List.singleton_inj.1 (List.append_cancel_left hrs))

/-- A pass that gives FINISHED completed a symbol and met the end of the buffer. -/
theorem tickPass_finished {s : State} (hv : s.viewStart < 2 ^ s.params.aw) (h : (tickPass s).2 = .finished) :
    s.target ≤ s.counter + 1 ∧
      ((s.resetting = false ∧ s.level = true ∧ advancedPos s = s.viewEnd) ∨
        (s.resetting = true ∧ s.startPending = true ∧ s.viewStart = s.viewEnd)) := by
  obtain ⟨-, he⟩ | ⟨-, -, -, he⟩ | ⟨ht, hr, hp, he⟩ | ⟨-, -, -, he⟩ | ⟨ht, hr, hl, he⟩ := tickPass_cases s <;>
    rw [he] at h
  · cases h
  · cases h
  · exact ⟨ht, .inr ⟨hr, hp, (advancedPos_transition hv).symm.trans (highPhaseDone_finished h)⟩⟩
  · cases h
  · exact ⟨ht, .inl ⟨hr, hl, highPhaseDone_finished (s := { s with counter := 0 }) h⟩⟩

/-- A TICK gives FINISHED only where it meets the end of the buffer: a locked one gives LOCKED, an unconfigured one OK. -/
theorem endsBufferNow_of_finished {s : State} (hv : s.viewStart < 2 ^ s.params.aw) (h : (tickStep s).2 = .finished) :
    EndsBufferNow s := by
  unfold tickStep at h
  split_ifs at h with hlock hconf
  obtain ⟨ht, hend⟩ := tickPass_finished hv h
  exact ⟨⟨not_not.1 hlock, hconf, ht⟩, hend⟩

/-! ### FEED's BODY (41 R120) -/

/-- FEED's first effect: the new view, with the cursor just before it. -/
def feedView (a b : Data) (s : State) : State :=
  cursorInit { s with viewStart := positionOperand s.params a, viewEnd := positionOperand s.params b }

/-- In `Held`, a FEED installs the view, makes a reset entry, and keeps the previous view as its answer. -/
theorem exec_feed_held {s : State} {a b : Data} (h : s.fgState = .held .feed a b) (haw : s.params.aw ≤ 32) :
    exec (.feed a b) s =
      .next { resetEntry (feedView a b s) with
        fgState := .done .ok (BitVec.ofNat 32 s.viewStart) (BitVec.ofNat 32 s.viewEnd) } := by
  rw [← zext32_eq (.inl haw), ← zext32_eq (.inl haw)]
  calc exec (.feed a b) s
      = .next (runBody (feedBody a b) s) := guarded_held h
    _ = _ := by rw [runBody, feedBody_eq]; rfl

end Sys2Proof.Machine

namespace Sys2Proof.Claims

open Sys2Proof.Machine

/-- Settles O35: each channel is eight consecutive bits of the wire word, and the wire bit counts from the top. -/
theorem codecSendsGreenRedBlue : Obligations.CodecSendsGreenRedBlue :=
  ⟨wireWord_toNat, fun c _ hj => ⟨wireBit_green c hj, wireBit_red c hj, wireBit_blue c hj⟩, by decide, by decide⟩

/-- Settles O38: the hold, or the transition, whose high-phase branch advances to `VIEW_START`. -/
theorem completionWhileResetting : Obligations.CompletionWhileResetting := by
  intro s hc hr hv
  have ht := target_le_of_completesNow hc
  refine ⟨fun hp => ?_, fun hp hne => ?_, fun hp hempty => ?_⟩
  · exact exec_tick_completes hc (tickPass_hold ht hr hp)
  · have hpos := advancedPos_transition hv
    have hpass := (tickPass_transition ht hr hp).trans (highPhaseDone_advanced (hpos.trans_ne hne))
    rw [hpos, advancedBit_transition, wireBit_green _ (by decide)] at hpass
    exact exec_tick_completes hc hpass
  · rw [exec_tick_endsBuffer hv ⟨hc, .inr ⟨hr, hp, hempty⟩⟩, ← hr]
    rfl

/-- Settles O40: the high-phase branch away from the end of the view. -/
theorem highPhaseCompletionStartsTheNextBit : Obligations.HighPhaseCompletionStartsTheNextBit := by
  intro s hc hr hl hne
  have hpass := (tickPass_high (target_le_of_completesNow hc) hr hl).trans
    (highPhaseDone_advanced (s := { s with counter := 0 }) hne)
  exact exec_tick_completes hc hpass

/-- Settles O41: the two entries to the end of the buffer share one branch, and no other branch gives FINISHED. -/
theorem endOfBufferFinishes : Obligations.EndOfBufferFinishes := by
  intro s hv
  exact ⟨exec_tick_endsBuffer hv, fun t hexec hrs =>
    endsBufferNow_of_finished hv (tickStep_code_of_responses hexec hrs)⟩

/-- Settles O45: after the new view, the three cases are those of the reset entry. -/
theorem feedBody : Obligations.FeedBody := by
  intro s a b hheld haw
  rw [exec_feed_held hheld haw]
  refine ⟨fun hr => ?_, fun hr hl => ?_, fun hr hl => ?_⟩
  · rw [resetEntry_resetting (s := feedView a b s) hr]
    rfl
  · rw [resetEntry_high (s := feedView a b s) hr hl]
    rfl
  · rw [resetEntry_low (s := feedView a b s) hr hl]
    rfl

/-- Settles O15: the locked branch of TICK. -/
theorem lockedTickIsOnlyCounted : Obligations.LockedTickIsOnlyCounted := fun _ => exec_tick_locked

/-- Settles O36: the unconfigured branch of TICK. -/
theorem unconfiguredTickHasNoEffect : Obligations.UnconfiguredTickHasNoEffect := fun _ => exec_tick_unconfigured

/-- Settles O39: the low-phase branch of the pass. -/
theorem lowPhaseCompletionGoesHigh : Obligations.LowPhaseCompletionGoesHigh := fun _ hc hr hl =>
  exec_tick_completes hc (tickPass_low (target_le_of_completesNow hc) hr hl)

/-- Settles O47: from `Idle` the unguarded step runs `startBody` and responds. -/
theorem startSetsPending : Obligations.StartSetsPending := fun _ _ _ hidle => unguarded_idle hidle

end Sys2Proof.Claims

/-! PROOFS. ASYNC_RESET (42 R130 to R137). -/

namespace Sys2Proof.Machine

/-! ### ASYNC_RESET's BODY -/

/-- In `Held`, an ASYNC_RESET makes a reset entry and keeps OK as its answer. -/
theorem exec_asyncReset_held {s : State} {a b : Data} (h : s.fgState = .held .asyncReset a b) :
    exec (.asyncReset a b) s = .next { resetEntry s with fgState := .done .ok 0 0 } :=
  calc exec (.asyncReset a b) s
      = .next (runBody asyncResetBody s) := guarded_held h
    _ = _ := by rw [runBody, asyncResetBody_eq]; rfl

end Sys2Proof.Machine

namespace Sys2Proof.Claims

open Sys2Proof.Machine

/-- Settles O48: the BODY is one reset entry, and the three cases are those of the reset entry. -/
theorem asyncResetBody : Obligations.AsyncResetBody := by
  intro s a b hheld
  rw [exec_asyncReset_held hheld]
  refine ⟨fun hr => ?_, fun hr hl => ?_, fun hr hl => ?_⟩
  · rw [resetEntry_resetting hr]
  · rw [resetEntry_high hr hl]
    rfl
  · rw [resetEntry_low hr hl]
    rfl

end Sys2Proof.Claims

/-! PROOFS. Every step keeps the invariant (10_state R36), operation by operation. -/

namespace Sys2Proof.Machine

/-! ### Counts and operands -/

theorem one_le_cntMax {p : Params} (hv : p.Valid) : 1 ≤ p.cntMax := by
  obtain ⟨-, -, -, -, -, -, hcnt, -⟩ := hv
  have hpow : 2 ^ 2 ≤ 2 ^ p.cntW := Nat.pow_le_pow_right (by decide) hcnt
  unfold Params.cntMax
  omega

theorem lowBits_lt (width : Nat) (w : Data) : lowBits width w < 2 ^ width := Nat.mod_lt _ (two_pow_pos _)

theorem one_le_ceilDiv {a b : Nat} (ha : 0 < a) (hb : 0 < b) : 1 ≤ ceilDiv a b :=
  Nat.div_pos (by omega) hb

/-- The counts of a calibration that succeeds are within `CNT_MAX`, and the reset count is not 0 (40 R95). -/
theorem calibrate_bounds {p : Params} {tp : Nat} {c : TickCounts} (hv : p.Valid) (h : calibrate p tp = some c) :
    (c.t0l ≤ p.cntMax ∧ c.t0h ≤ p.cntMax ∧ c.t1l ≤ p.cntMax ∧ c.t1h ≤ p.cntMax ∧ c.res ≤ p.cntMax) ∧ 1 ≤ c.res := by
  obtain ⟨-, hnom, -⟩ := hv
  obtain ⟨htp, -, -, -, -, hres, hmax⟩ := (calibrate_eq_some_iff p tp c).1 h
  simp only [max_le_iff] at hmax
  obtain ⟨⟨⟨h0l, h0h⟩, h1l, h1h⟩, hr⟩ := hmax
  exact ⟨⟨h0l, h0h, h1l, h1h, hr⟩, hres ▸ one_le_ceilDiv hnom htp⟩

section

variable {s t : State}

/-! ### What the invariant does not speak of -/

theorem invariant_schedule (h : Invariant s) (l : List Agent) : Invariant { s with schedule := l } := { h with }

theorem invariant_startPending (h : Invariant s) (p : Bool) : Invariant { s with startPending := p } := { h with }

theorem invariant_respond (h : Invariant s) (q : Port) (r : Answer) : Invariant (respond q r s) := { h with }

theorem invariant_countStep (h : Invariant s) : Invariant (countStep s) := { h with }

theorem invariant_finishCommand (h : Invariant s) : Invariant (finishCommand s) := by
  unfold finishCommand
  split
  · exact { h with }
  · exact h
  · exact h

/-! ### Updates of the transmission state, once configured -/

/-- Entering Resetting: the cursor before the first colour, the line low, a full reset count to go (10_state R29, R36).
`level` may also be the state's own, where that is low already. -/
theorem invariant_enterReset {level pending : Bool} {counter : Nat} {trace : List PinEntry} (h : Invariant s)
    (hc : s.configured = true) (hl : level = false) (hn : counter ≤ s.params.cntMax) :
    Invariant { s with
      resetting := true, startPending := pending, level := level, pos := previousPosition s.params s.viewStart,
      bit := 23, counter := counter, target := s.tc.res, pinTrace := trace } := by
  obtain ⟨-, -, -, -, hres⟩ := h.counts_bound
  obtain ⟨hpin, hstart, hend, -, hdrop⟩ := h.widths
  exact { h with
    bit_legal := Nat.le_refl 23
    transmitting_configured := fun _ => hc
    resetting_cursor := fun _ => ⟨hl, rfl, rfl⟩
    resetting_target := fun _ _ => rfl
    timer_bound := ⟨hn, hres⟩
    unconfigured_values := fun hu => absurd (hu.symm.trans hc) Bool.false_ne_true
    widths := ⟨hpin, hstart, hend, previousPosition_lt _ _, hdrop⟩ }

/-- Transmitting: the cursor and the timer are only bound to their ranges. -/
theorem invariant_transmitting {resetting pending level bitval : Bool} {pos bit counter target draws : Nat}
    {trace : List PinEntry} {reads : List ReadEntry} (h : Invariant s) (hc : s.configured = true)
    (hr : resetting = false) (hpos : pos < 2 ^ s.params.aw) (hbit : bit ≤ 23) (hn : counter ≤ s.params.cntMax)
    (ht : target ≤ s.params.cntMax) :
    Invariant { s with
      resetting := resetting, startPending := pending, level := level, pos := pos, bit := bit, bitval := bitval,
      counter := counter, target := target, pinTrace := trace, readTrace := reads, draws := draws } := by
  obtain ⟨hpin, hstart, hend, -, hdrop⟩ := h.widths
  have notResetting : ¬ resetting = true := Bool.eq_false_iff.1 hr
  exact { h with
    bit_legal := hbit
    transmitting_configured := fun _ => hc
    resetting_cursor := fun hr' => absurd hr' notResetting
    resetting_target := fun hr' => absurd hr' notResetting
    timer_bound := ⟨hn, ht⟩
    unconfigured_values := fun hu => absurd (hu.symm.trans hc) Bool.false_ne_true
    widths := ⟨hpin, hstart, hend, hpos, hdrop⟩ }

/-- The counter moves, and the target stays or becomes the reset count. -/
theorem invariant_timer {counter target : Nat} (h : Invariant s) (hc : s.configured = true)
    (hn : counter ≤ s.params.cntMax) (ht : target = s.target ∨ target = s.tc.res) :
    Invariant { s with counter := counter, target := target } := by
  obtain ⟨-, -, -, -, hres⟩ := h.counts_bound
  obtain ⟨-, htarget⟩ := h.timer_bound
  exact { h with
    resetting_target := fun hr _ => ht.elim (fun e => e.trans (h.resetting_target hr hc)) id
    timer_bound := ⟨hn, ht.elim (fun e => e ▸ htarget) fun e => e ▸ hres⟩
    unconfigured_values := fun hu => absurd (hu.symm.trans hc) Bool.false_ne_true }

/-! ### The guard (20_memory R58) -/

theorem invariant_acquire (h : Invariant s) (hidle : s.fgState = .idle) (op : GuardedOp) (a b : Data) :
    Invariant (acquire op a b s) :=
  { h with
    guard_free := fun hf => nomatch hf
    guard_held := fun _ => congrArg (· + 1) (h.guard_free hidle)
    done_code := fun _ _ _ hf => nomatch hf }

theorem invariant_release (h : Invariant s) (hf : s.fgState ≠ .idle) (code : ResponseCode) (d0 d1 : Data) :
    Invariant (release code d0 d1 s) :=
  { h with
    guard_free := fun _ => congrArg (· - 1) (h.guard_held hf)
    guard_held := fun hne => absurd rfl hne
    done_code := fun _ _ _ hd => nomatch hd }

/-- BODY, for a body that keeps the invariant, leaves `LOCK` alone and answers OK or FAIL. -/
theorem invariant_runBody {body : State → State × Answer} (h : Invariant s) (hf : s.fgState ≠ .idle)
    (hbody : Invariant (body s).1) (hlock : (body s).1.lock = s.lock)
    (hcode : (body s).2.code = .ok ∨ (body s).2.code = .fail) : Invariant (runBody body s) :=
  { hbody with
    guard_free := fun hf => nomatch hf
    guard_held := fun _ => hlock.trans (h.guard_held hf)
    done_code := fun _ _ _ hd => by
      obtain ⟨rfl, -, -⟩ := FgState.done.inj hd
      exact hcode }

theorem invariant_guarded {op : GuardedOp} {a b : Data} {body : State → State × Answer} (h : Invariant s)
    (hbody : Invariant (body s).1) (hlock : (body s).1.lock = s.lock)
    (hcode : (body s).2.code = .ok ∨ (body s).2.code = .fail) (hnext : guarded op a b body s = .next t) :
    Invariant t := by
  obtain ⟨hidle, rfl⟩ | ⟨hheld, rfl⟩ | ⟨code, d0, d1, hdone, -, rfl⟩ := guarded_next hnext
  · exact invariant_acquire h hidle op a b
  · exact invariant_runBody h (by simp [hheld]) hbody hlock hcode
  · exact invariant_release h (by simp [hdone]) code d0 d1

/-! ### The bodies of the guarded commands -/

theorem invariant_resetEntry (h : Invariant s) : Invariant (resetEntry s) := by
  obtain ⟨hcounter, -⟩ := h.timer_bound
  obtain ⟨-, e⟩ | ⟨hr, -, e⟩ | ⟨hr, hl, e⟩ := resetEntry_cases s <;> rw [e]
  · exact h
  · exact invariant_enterReset h (h.transmitting_configured hr) rfl (one_le_cntMax h.params_valid)
  · exact invariant_enterReset h (h.transmitting_configured hr) hl hcounter

theorem invariant_feedView (h : Invariant s) (a b : Data) : Invariant (feedView a b s) := by
  obtain ⟨hpin, -, -, -, hdrop⟩ := h.widths
  exact { h with
    bit_legal := Nat.le_refl 23
    resetting_cursor := fun hr => ⟨(h.resetting_cursor hr).1, rfl, rfl⟩
    widths := ⟨hpin, lowBits_lt _ _, lowBits_lt _ _, previousPosition_lt _ _, hdrop⟩ }

theorem invariant_feedBody (h : Invariant s) (a b : Data) : Invariant (feedBody a b s).1 := by
  rw [feedBody_eq]
  exact invariant_resetEntry (invariant_feedView h a b)

theorem invariant_asyncResetBody (h : Invariant s) : Invariant (asyncResetBody s).1 := by
  rw [asyncResetBody_eq]
  exact invariant_resetEntry h

/-- A CONFIGURE that succeeds writes the whole configuration, and with it the forced reset entry (40 R97). -/
theorem invariant_bindPin (h : Invariant s) {tp : Nat} {c : TickCounts} (hc : calibrate s.params tp = some c)
    (a : Data) : Invariant (bindPin (pinOperand s.params a) c s) := by
  obtain ⟨hcounts, hres⟩ := calibrate_bounds h.params_valid hc
  have ⟨_, _, _, _, hresMax⟩ := hcounts
  obtain ⟨-, hstart, hend, -, hdrop⟩ := h.widths
  rw [bindPin_eq]
  exact { h with
    bit_legal := Nat.le_refl 23
    transmitting_configured := fun _ => rfl
    resetting_cursor := fun _ => ⟨rfl, rfl, rfl⟩
    resetting_target := fun _ _ => rfl
    timer_bound := ⟨one_le_cntMax h.params_valid, hresMax⟩
    counts_bound := hcounts
    unconfigured_values := fun hu => nomatch hu
    reset_count := fun _ => hres
    widths := ⟨lowBits_lt _ _, hstart, hend, previousPosition_lt _ _, hdrop⟩ }

theorem invariant_configureBody (h : Invariant s) (a b : Data) :
    Invariant (configureBody a b s).1 ∧
      ((configureBody a b s).2.code = .ok ∨ (configureBody a b s).2.code = .fail) := by
  cases hc : calibrate s.params (periodOperand s.params b) with
  | none =>
    rw [configureBody_fail hc]
    exact ⟨h, .inr rfl⟩
  | some c =>
    rw [configureBody_ok hc]
    exact ⟨invariant_bindPin h hc a, .inl rfl⟩

/-! ### TICK (41 R108) -/

theorem advanceCursor_pos_lt (h : Invariant s) : (advanceCursor s).pos < 2 ^ s.params.aw := by
  obtain ⟨-, -, -, hpos, -⟩ := h.widths
  rw [advanceCursor_eq]
  dsimp only
  split_ifs
  · exact nextPosition_lt _ _
  · exact hpos

theorem advanceCursor_bit_le (h : Invariant s) : (advanceCursor s).bit ≤ 23 := by
  have hbit := h.bit_legal
  rw [advanceCursor_eq]
  dsimp only
  split_ifs
  · omega
  · omega

theorem invariant_lowPhaseDone (h : Invariant s) (hr : s.resetting = false) : Invariant (lowPhaseDone s).1 := by
  obtain ⟨-, -, -, hpos, -⟩ := h.widths
  obtain ⟨hcounter, -⟩ := h.timer_bound
  obtain ⟨-, h0h, -, h1h, -⟩ := h.counts_bound
  rw [lowPhaseDone_eq]
  exact invariant_transmitting h (h.transmitting_configured hr) hr hpos h.bit_legal hcounter
    (by split_ifs <;> assumption)

theorem invariant_highPhaseDone (h : Invariant s) (hr : s.resetting = false) : Invariant (highPhaseDone s).1 := by
  have hc := h.transmitting_configured hr
  obtain ⟨hcounter, -⟩ := h.timer_bound
  obtain ⟨h0l, -, h1l, -, -⟩ := h.counts_bound
  by_cases hend : (advanceCursor s).pos = s.viewEnd
  · rw [highPhaseDone_end hend]
    exact invariant_enterReset h hc rfl (Nat.zero_le _)
  · rw [highPhaseDone_next hend]
    exact invariant_transmitting h hc hr (advanceCursor_pos_lt h) (advanceCursor_bit_le h) hcounter
      (by split_ifs <;> assumption)

theorem invariant_transition (h : Invariant s) (hc : s.configured = true) :
    Invariant { transition s with counter := 0 } := by
  rw [transition_eq]
  exact invariant_transmitting h hc rfl (previousPosition_lt _ _) (Nat.le_refl 23) (Nat.zero_le _)
    (one_le_cntMax h.params_valid)

theorem invariant_tickPass (h : Invariant s) (hc : s.configured = true) : Invariant (tickPass s).1 := by
  obtain ⟨-, htarget⟩ := h.timer_bound
  have counterCleared : Invariant { s with counter := 0 } := invariant_timer h hc (Nat.zero_le _) (.inl rfl)
  obtain ⟨hlt, e⟩ | ⟨-, -, -, e⟩ | ⟨-, -, -, e⟩ | ⟨-, hr, -, e⟩ | ⟨-, hr, -, e⟩ := tickPass_cases s <;> rw [e]
  · exact invariant_timer h hc (hlt.le.trans htarget) (.inl rfl)
  · exact invariant_timer h hc (Nat.zero_le _) (.inr rfl)
  · exact invariant_highPhaseDone (invariant_transition h hc) rfl
  · exact invariant_lowPhaseDone counterCleared hr
  · exact invariant_highPhaseDone counterCleared hr

/-- A locked TICK writes only `DROPPED`, modulo its width (10_state R38). -/
theorem invariant_tickStep (h : Invariant s) : Invariant (tickStep s).1 := by
  obtain ⟨hpin, hstart, hend, hpos, -⟩ := h.widths
  unfold tickStep
  split_ifs with hl hc
  · exact { h with widths := ⟨hpin, hstart, hend, hpos, Nat.mod_lt _ (two_pow_pos _)⟩ }
  · exact invariant_tickPass h hc
  · exact h

/-! ### Every command -/

theorem invariant_unguarded {i : Instr} (h : Invariant s) (ht : i ≠ .tick) (hg : isGuarded i = false)
    (hnext : exec i s = .next t) : Invariant t := by
  obtain ⟨body, hexec, hbody⟩ := exec_unguarded ht hg
  obtain ⟨-, rfl⟩ := unguarded_next ((hexec s).symm.trans hnext)
  refine invariant_respond ?_ _ _
  obtain hsame | ⟨-, hstart⟩ := hbody
  · rw [hsame]
    exact h
  · rw [hstart]
    exact invariant_startPending h true

theorem invariant_exec {i : Instr} (h : Invariant s) (hnext : exec i s = .next t) : Invariant t := by
  cases i with
  | configure a b =>
    obtain ⟨hbody, hcode⟩ := invariant_configureBody h a b
    exact invariant_guarded h hbody (configureBody_lock a b s) hcode hnext
  | feed a b => exact invariant_guarded h (invariant_feedBody h a b) (feedBody_lock a b s) (.inl rfl) hnext
  | asyncReset a b =>
    exact invariant_guarded h (invariant_asyncResetBody h) (asyncResetBody_lock s) (.inl rfl) hnext
  | tick =>
    obtain rfl := Host.Outcome.next.inj hnext
    exact invariant_respond (invariant_tickStep h) _ _
  | _ => exact invariant_unguarded h Instr.noConfusion rfl hnext

/-! ### FG's actions on colour memory (20_memory R50, R53) -/

theorem invariant_store (h : Invariant s) {k : Nat} (hk : k < 2 ^ s.params.aw) (c : Channel) (v : Byte)
    (acts : List FgAction) (n : Nat) :
    Invariant { s with program := acts, memory := s.memory.write (cellAddress s.params k c) v, steps := n } :=
  { h with
    memory_wf := Memory.write_wf h.memory_wf _ _
    memory_range := fun x hx => by
      obtain rfl | hold := Memory.mem_write hx
      · exact cellAddress_range s.params c hk
      · exact h.memory_range x hold }

theorem invariant_reclaim (h : Invariant s) (k : Nat) (acts : List FgAction) (n : Nat) :
    Invariant { s with program := acts, memory := s.memory.reclaim s.params k, steps := n } :=
  { h with
    memory_wf := Memory.reclaim_wf h.memory_wf _ _
    memory_range := fun x hx => h.memory_range x (Memory.mem_reclaim hx) }

theorem invariant_fgMemoryStep (h : Invariant s) (hnext : fgMemoryStep s = .next t) : Invariant t := by
  obtain rfl | ⟨k, c, v, more, -, hk, rfl⟩ | ⟨k, more, -, -, rfl⟩ := fgMemoryStep_next hnext
  · exact h
  · exact invariant_store h hk c v _ _
  · exact invariant_reclaim h k _ _

end

end Sys2Proof.Machine

namespace Sys2Proof.Claims

open Sys2Proof.Machine

/-- Settles O25: a step is a TICK, a step of a command, or an action on colour memory, and each keeps the invariant. -/
theorem everyStepKeepsTheInvariant : Obligations.EveryStepKeepsTheInvariant := by
  intro s t h hstep
  obtain ⟨-, -, hcases⟩ := step_next hstep
  obtain ⟨-, rfl⟩ | ⟨rest, u, -, hexec, rfl⟩ | ⟨rest, -, -, rfl⟩ | ⟨rest, cw, more, u, -, -, hexec, rfl⟩ |
    ⟨rest, k, c, v, more, -, -, hk, rfl⟩ | ⟨rest, k, more, -, -, -, rfl⟩ | ⟨rest, -, hmem⟩ := hcases
  · exact h
  · exact invariant_countStep (invariant_exec (invariant_schedule h rest) hexec)
  · exact invariant_schedule h rest
  · exact invariant_countStep (invariant_finishCommand (invariant_exec (invariant_schedule h rest) hexec))
  · exact invariant_store (invariant_schedule h rest) hk c v more _
  · exact invariant_reclaim (invariant_schedule h rest) k more _
  · exact invariant_fgMemoryStep (invariant_schedule h rest) hmem

end Sys2Proof.Claims

/-! PROOFS. The accessors (43 R140 to R149). -/

namespace Sys2Proof.Machine

/-- Each flag of the status word at its bit (43 R147). -/
theorem statusWord_flags (s : State) :
    (statusWord s).getLsbD 0 = s.resetting ∧ (statusWord s).getLsbD 1 = s.startPending ∧
      (statusWord s).getLsbD 2 = s.level ∧ (statusWord s).getLsbD 3 = s.configured := by
  simp only [statusWord, BitVec.getLsbD_setWidth, BitVec.getLsbD_append, BitVec.getLsbD_ofBool]
  exact ⟨rfl, rfl, rfl, rfl⟩

theorem statusWord_getLsbD_high (s : State) {j : Nat} (hj : 4 ≤ j) : (statusWord s).getLsbD j = false := by
  unfold statusWord
  rw [BitVec.getLsbD_setWidth, BitVec.getLsbD_of_ge _ _ hj, Bool.and_false]

/-- The accessor of one register whose value is 0 responds with 0, whatever the register's width. -/
theorem getRegister_zero {width : Params → Nat} {value : State → Nat} {s : State} (h : s.fgState = .idle)
    (hv : value s = 0) :
    getRegister width value s = .next { s with responses := withResponse s .command .ok 0 0 } := by
  rw [getRegister_idle h, hv, zext32_zero]

/-- The accessor of one tick count, while the whole table is 0. -/
theorem getRegister_count_zero {s : State} (h : s.fgState = .idle)
    (htc : s.tc = { t0l := 0, t0h := 0, t1l := 0, t1h := 0, res := 0 }) (count : TickCounts → Nat)
    (hcount : count { t0l := 0, t0h := 0, t1l := 0, t1h := 0, res := 0 } = 0) :
    getRegister Params.cntW (fun u => count u.tc) s =
      .next { s with responses := withResponse s .command .ok 0 0 } :=
  getRegister_zero h ((congrArg count htc).trans hcount)

theorem exec_getTres_idle {s : State} (a b : Data) (h : s.fgState = .idle) :
    exec (.getTres a b) s =
      .next { s with
        responses := withResponse s .command .ok (zext32Positive s.params.cntW s.tc.res) 0 } :=
  accessor_idle (d0 := fun s => zext32Positive s.params.cntW s.tc.res) (d1 := fun _ => 0) h

theorem exec_getTimer_idle {s : State} (a b : Data) (h : s.fgState = .idle) :
    exec (.getTimer a b) s =
      .next { s with
        responses := withResponse s .command .ok (zext32 s.params.cntW s.counter) (zext32 s.params.cntW s.target) } :=
  accessor_idle (d0 := fun s => zext32 s.params.cntW s.counter) (d1 := fun s => zext32 s.params.cntW s.target) h

theorem exec_getStatus_idle {s : State} (a b : Data) (h : s.fgState = .idle) :
    exec (.getStatus a b) s = .next { s with responses := withResponse s .command .ok (statusWord s) 0 } :=
  accessor_idle (d0 := statusWord) (d1 := fun _ => 0) h

/-- Before the first successful CONFIGURE the block is Resetting with the line low (10_state R36, items 2 and 3). -/
theorem resetting_low_of_unconfigured {s : State} (h : Invariant s) (hc : s.configured = false) :
    s.resetting = true ∧ s.level = false := by
  have hr : s.resetting = true := by
    by_contra hr
    exact Bool.false_ne_true (hc.symm.trans (h.transmitting_configured (Bool.eq_false_iff.2 hr)))
  obtain ⟨hl, -, -⟩ := h.resetting_cursor hr
  exact ⟨hr, hl⟩

/-- A count within `CNT_MAX` fits its register of `CNT_W` bits. -/
theorem lt_two_pow_cntW {p : Params} {n : Nat} (h : n ≤ p.cntMax) : n < 2 ^ p.cntW := by
  have hpow := two_pow_pos p.cntW
  unfold Params.cntMax at h
  omega

end Sys2Proof.Machine

namespace Sys2Proof.Claims

open Sys2Proof.Machine

/-- Settles O57: the invariant gives the registers' values before the first CONFIGURE and `TC_RES >= 1` after it. -/
theorem accessorsBeforeAndAfterConfigure : Obligations.AccessorsBeforeAndAfterConfigure := by
  intro s a b h hidle
  refine ⟨fun hc => ?_, fun hc => ?_⟩
  · obtain ⟨hpin, htc, hcounter, htarget⟩ := h.unconfigured_values hc
    obtain ⟨hr, hl⟩ := resetting_low_of_unconfigured h hc
    have hres : RespondsZero (.getTres a b) s := by
      have hzero : s.tc.res = 0 := by rw [htc]
      rw [RespondsZero, exec_getTres_idle a b hidle, hzero, zext32Positive_zero]
    have htimer : RespondsZero (.getTimer a b) s := by
      rw [RespondsZero, exec_getTimer_idle a b hidle, hcounter, htarget, zext32_zero]
    have hstatus := exec_getStatus_idle a b hidle
    rw [statusWord_unconfigured hr hl hc] at hstatus
    have hcount := getRegister_count_zero hidle htc
    exact ⟨getRegister_zero hidle hpin, hcount TickCounts.t0l rfl, hcount TickCounts.t0h rfl, hcount TickCounts.t1l rfl,
      hcount TickCounts.t1h rfl, hres, htimer, getRegister_zero hidle, hstatus⟩
  · obtain ⟨-, -, -, -, hmax⟩ := h.counts_bound
    exact ⟨_, exec_getTres_idle a b hidle, zext32Positive_ne_zero (h.reset_count hc) (lt_two_pow_cntW hmax)⟩

/-- Settles O54: GET_STATUS responds with the status word, whose bits are the flags. -/
theorem statusWordPacksTheFlags : Obligations.StatusWordPacksTheFlags := by
  intro s a b hidle
  obtain ⟨hresetting, hpending, hlevel, hconfigured⟩ := statusWord_flags s
  exact ⟨_, exec_getStatus_idle a b hidle, hresetting, hpending, hlevel, hconfigured,
    fun _ => statusWord_getLsbD_high s⟩

end Sys2Proof.Claims

/-! PROOFS. FG's turn on colour memory: a store, giving storage up, and its plain turn (20 R57, 60 R172). -/

namespace Sys2Proof.Machine

section
variable {s : State} {k : Nat} {c : Channel} {v : Byte} {more : List FgAction}

theorem storeChannel_next (h : k < 2 ^ s.params.aw) :
    storeChannel k c v s = .next { s with memory := s.memory.write (cellAddress s.params k c) v } := if_pos h

theorem storeChannel_fault (h : 2 ^ s.params.aw ≤ k) : storeChannel k c v s = .fault .noSuchPosition :=
  if_neg (Nat.not_lt.2 h)

theorem reclaimPosition_next (h : k < 2 ^ s.params.aw) :
    reclaimPosition k s = .next { s with memory := s.memory.reclaim s.params k } := if_pos h

theorem reclaimPosition_fault (h : 2 ^ s.params.aw ≤ k) : reclaimPosition k s = .fault .noSuchPosition :=
  if_neg (Nat.not_lt.2 h)

/-- Behind a command word in flight a store is done, and the word stays. -/
theorem fgMemoryStep_store_inFlight {act : FgAction} (hf : s.fgState ≠ .idle)
    (hp : s.program = act :: .store k c v :: more) :
    fgMemoryStep s = mapNext countStep (storeChannel k c v { s with program := act :: more }) := by
  obtain ⟨hport, hafter⟩ := portWord_inFlight hf hp
  rw [fgMemoryStep, hafter, hport]
  rfl

/-- Behind a command word in flight storage is given up, and the word stays. -/
theorem fgMemoryStep_reclaim_inFlight {act : FgAction} (hf : s.fgState ≠ .idle)
    (hp : s.program = act :: .reclaim k :: more) :
    fgMemoryStep s = mapNext countStep (reclaimPosition k { s with program := act :: more }) := by
  obtain ⟨hport, hafter⟩ := portWord_inFlight hf hp
  rw [fgMemoryStep, hafter, hport]
  rfl

/-- Outside a guarded window FG's turn on colour memory is its plain turn, for an action that is no command. -/
theorem fgMemoryStep_idle {act : FgAction} (hf : s.fgState = .idle) (hp : s.program = act :: more)
    (hact : ∀ cw, act ≠ .command cw) : fgMemoryStep s = fgStep s := by
  obtain ⟨hport, hafter⟩ := portWord_idle hf
  rw [fgMemoryStep, fgStep, hafter, hport, hp]
  cases act with
  | command cw => exact absurd rfl (hact cw)
  | store k c v => rfl
  | reclaim k => rfl

end

end Sys2Proof.Machine

namespace Sys2Proof.Claims

open Sys2Proof.Machine

/-- Settles O56: the turn runs the action behind the port word, and one write or one reclaim is all that reads see. -/
theorem storeInsideAGuardedWindow : Obligations.StoreInsideAGuardedWindow := by
  intro s rest hv hl hs
  have hstep : step s = fgMemoryStep { s with schedule := rest } := step_fgMemory hv hl hs
  refine ⟨fun cw k c v more hf hp => ?store, fun cw k more hf hp => ?reclaim, fun act more hf hp hact => ?plain⟩
  case store =>
    have hturn := hstep.trans (fgMemoryStep_store_inFlight hf hp)
    refine ⟨fun hk => ⟨s.memory.write (cellAddress s.params k c) v, ?_, Memory.read_write_same _ _ _,
      fun _ => Memory.read_write_other _ _⟩, fun hk => ?_⟩
    · exact hturn.trans (congrArg (mapNext countStep) (storeChannel_next (by exact hk)))
    · exact hturn.trans (congrArg (mapNext countStep) (storeChannel_fault (by exact hk)))
  case reclaim =>
    have hturn := hstep.trans (fgMemoryStep_reclaim_inFlight hf hp)
    refine ⟨fun hk => ⟨s.memory.reclaim s.params k, ?_, Memory.read_reclaim _ _ _⟩, fun hk => ?_⟩
    · exact hturn.trans (congrArg (mapNext countStep) (reclaimPosition_next (by exact hk)))
    · exact hturn.trans (congrArg (mapNext countStep) (reclaimPosition_fault (by exact hk)))
  case plain =>
    have hfg : step { s with schedule := .fg :: rest } = fgStep { s with schedule := rest } := step_fg hv hl rfl
    exact (hstep.trans (fgMemoryStep_idle hf hp hact)).trans hfg.symm

end Sys2Proof.Claims

/-! PROOFS. Power-on reset (70 R180). -/

namespace Sys2Proof.Machine

/-- The reset value of `POS` is `POS_MASK` (10_state R22). -/
theorem powerOn_pos (p : Params) : (State.powerOn p).pos = 2 ^ p.aw - 1 := rfl

/-- No pin has a level before its first write is traced (10_state R40). -/
theorem wireLevel_powerOn (p : Params) (q : Nat) : wireLevel q (State.powerOn p).pinTrace = none :=
  wireLevel_eq_none fun _ he => absurd he List.not_mem_nil

end Sys2Proof.Machine

namespace Sys2Proof.Claims

open Sys2Proof.Machine

/-- Settles O23: each register is read off `State.powerOn`, and the empty trace gives no pin a level. -/
theorem powerOnRegisterValues : Obligations.PowerOnRegisterValues := by
  intro p
  exact ⟨
    -- the configuration and the five tick counts
    rfl, rfl, rfl, rfl, rfl, rfl, rfl,
    -- the view and the mode
    rfl, rfl, rfl, rfl,
    -- the cursor
    rfl, powerOn_pos p, rfl, rfl,
    -- the timer, the guard and the diagnostics
    rfl, rfl, rfl, rfl,
    -- the command port and the trace of pin events
    rfl, rfl, wireLevel_powerOn p⟩

end Sys2Proof.Claims

/-! PROOFS. Command words: decoding undoes encoding and is undone by it (30_encoding R70 to R80). -/

namespace Sys2Proof

/-- A command word made of fields is the command of its opcode with its operands (30_encoding R71). -/
@[simp] theorem decodeCommand_commandWord (op : BitVec 4) (a b : Data) :
    decodeCommand (commandWord op a b) = commandOfOpcode op.toFin a b := by
  rw [decodeCommand, opField_commandWord, aField_commandWord, bField_commandWord]

/-- The command of an opcode is written with that opcode: the two tables of R74 and R75 agree, row by row. -/
theorem encode_commandOfOpcode (op : BitVec 4) (a b : Data) :
    encode (commandOfOpcode op.toFin a b) = .command (commandWord op a b) := by
  obtain ⟨op⟩ := op
  fin_cases op <;> rfl

theorem encode_decodeCommand (cw : CommandWord) : encode (decodeCommand cw) = .command cw := by
  rw [decodeCommand, encode_commandOfOpcode, commandWord_fields]

/-- The mnemonic of a command is that of its opcode, whatever its operands are. -/
theorem mnemonic_commandOfOpcode (op : Fin 16) (a b a' b' : Data) :
    (commandOfOpcode op a b).mnemonic = (commandOfOpcode op a' b').mnemonic := by
  fin_cases op <;> rfl

/-- `CW[3:0]` is the word modulo 16 (30_encoding R70). -/
theorem opField_eq_of_mod {cw cw' : CommandWord} (h : cw.toNat % 16 = cw'.toNat % 16) : opField cw = opField cw' :=
  BitVec.eq_of_toNat_eq (by simpa [opField] using h)

/-- Settles O3: each command word is made of its fields, and its opcode selects the constructor again. -/
theorem decodingUndoesEncoding : Obligations.DecodingUndoesEncoding := by
  intro i
  cases i with
  | tick => rfl
  | _ a b => exact congrArg Except.ok (decodeCommand_commandWord _ a b)

/-- Settles O4: a command word is the word of its fields, and the only strobe that decodes is 1. -/
theorem encodingUndoesDecoding : Obligations.EncodingUndoesDecoding := by
  intro w i h
  match w with
  | .command cw =>
    obtain rfl := Except.ok.inj h
    exact encode_decodeCommand cw
  | .strobe true =>
    obtain rfl := Except.ok.inj h
    rfl
  | .strobe false => cases h

/-- Settles O5: equal low four bits are equal opcodes, and the mnemonic is the opcode's. -/
theorem opcodeBitsAloneSelectTheCommand : Obligations.OpcodeBitsAloneSelectTheCommand := by
  intro cw cw' h
  rw [decodeCommand, decodeCommand, opField_eq_of_mod h]
  exact mnemonic_commandOfOpcode _ _ _ _ _

/-- Settles O1: seventeen port words, each decoded by evaluation. -/
theorem opcodeWordsDecode : Obligations.OpcodeWordsDecode := by
  unfold Obligations.OpcodeWordsDecode
  decide

/-- Settles O2: six lines of text, each assembled by evaluation. -/
theorem workedEncodingsAssemble : Obligations.WorkedEncodingsAssemble := by
  unfold Obligations.WorkedEncodingsAssemble
  decide

/-- Settles O9: the listings are the expansions by definition, and a guarded command has three turns of FG. -/
theorem pseudoInstructionsExpand : Obligations.PseudoInstructionsExpand :=
  ⟨fun _ => rfl, fun _ _ => rfl, fun _ _ => rfl, fun _ => rfl⟩

end Sys2Proof

/-! PROOFS. What `exec` can do, command by command: the three steps of a guarded command, one unguarded step, a TICK. -/

namespace Sys2Proof.Machine

open Sys2Proof.Claims

/-! ### The bodies of the guarded commands -/

/-- The BODY that `exec` runs for a guarded operation (`exec_instr`). -/
def GuardedOp.body (op : GuardedOp) (a b : Data) : State → State × Answer :=
  match op with
  | .configure => configureBody a b
  | .feed => feedBody a b
  | .asyncReset => asyncResetBody

/-- A guarded command is the three steps of its operation around its body (20_memory R58). -/
theorem exec_instr (op : GuardedOp) (a b : Data) (s : State) :
    exec (op.instr a b) s = guarded op a b (op.body a b) s := by
  cases op with
  | configure => rfl
  | feed => rfl
  | asyncReset => rfl

@[simp] theorem isGuarded_instr (op : GuardedOp) (a b : Data) : isGuarded (op.instr a b) = true := by
  cases op with
  | configure => rfl
  | feed => rfl
  | asyncReset => rfl

theorem instr_ne_tick (op : GuardedOp) (a b : Data) : op.instr a b ≠ .tick := fun h => by
  have hg := isGuarded_instr op a b
  rw [h] at hg
  cases hg

theorem isGuarded_iff {i : Instr} : isGuarded i = true ↔ ∃ op a b, i = GuardedOp.instr op a b := by
  constructor
  · intro h
    obtain ⟨op, a, b, -, hi, -⟩ := exec_guarded h
    exact ⟨op, a, b, hi⟩
  · rintro ⟨op, a, b, rfl⟩
    exact isGuarded_instr op a b

/-- What `t` shares with `s` after the BODY of a guarded command from `s`: no BODY writes these (10_state R22). -/
structure BodyFrame (s t : State) : Prop where
  params : t.params = s.params
  startPending : t.startPending = s.startPending
  bitval : t.bitval = s.bitval
  lock : t.lock = s.lock
  dropped : t.dropped = s.dropped
  fgState : t.fgState = s.fgState
  memory : t.memory = s.memory
  program : t.program = s.program
  schedule : t.schedule = s.schedule
  responses : t.responses = s.responses
  readTrace : t.readTrace = s.readTrace
  draws : t.draws = s.draws
  steps : t.steps = s.steps

/-- All that a BODY can do: CONFIGURE's fails or binds the pin, FEED's and ASYNC_RESET's make a reset entry. -/
theorem body_cases (op : GuardedOp) (a b : Data) (s : State) :
    (op = .configure ∧ calibrate s.params (periodOperand s.params b) = none ∧ op.body a b s = (s, plain .fail)) ∨
    (∃ c, op = .configure ∧ calibrate s.params (periodOperand s.params b) = some c ∧
      op.body a b s = (bindPin (pinOperand s.params a) c s, plain .ok)) ∨
    (op = .feed ∧ op.body a b s =
      (resetEntry (feedView a b s),
        { code := .ok, d0 := zext32 s.params.aw s.viewStart, d1 := zext32 s.params.aw s.viewEnd })) ∨
    (op = .asyncReset ∧ op.body a b s = (resetEntry s, plain .ok)) := by
  cases op with
  | configure =>
    cases hc : calibrate s.params (periodOperand s.params b) with
    | none => exact .inl ⟨rfl, rfl, configureBody_fail hc⟩
    | some c => exact .inr (.inl ⟨c, rfl, rfl, configureBody_ok hc⟩)
  | feed => exact .inr (.inr (.inl ⟨rfl, feedBody_eq a b s⟩))
  | asyncReset => exact .inr (.inr (.inr ⟨rfl, asyncResetBody_eq s⟩))

theorem resetEntry_frame (s : State) : BodyFrame s (resetEntry s) := by
  constructor <;> simp

theorem body_frame (op : GuardedOp) (a b : Data) (s : State) : BodyFrame s (op.body a b s).1 := by
  obtain ⟨-, -, e⟩ | ⟨c, -, -, e⟩ | ⟨-, e⟩ | ⟨-, e⟩ := body_cases op a b s <;> rw [e]
  · exact ⟨rfl, rfl, rfl, rfl, rfl, rfl, rfl, rfl, rfl, rfl, rfl, rfl, rfl⟩
  · rw [bindPin_eq]
    exact ⟨rfl, rfl, rfl, rfl, rfl, rfl, rfl, rfl, rfl, rfl, rfl, rfl, rfl⟩
  · exact { resetEntry_frame (feedView a b s) with }
  · exact resetEntry_frame s

/-- A reset entry neither reads nor writes the guard. -/
theorem resetEntry_guard (s : State) (n : Nat) (f : FgState) :
    resetEntry { s with lock := n, fgState := f } = { resetEntry s with lock := n, fgState := f } := by
  obtain ⟨hr, e⟩ | ⟨hr, hl, e⟩ | ⟨hr, hl, e⟩ := resetEntry_cases s <;> rw [e]
  · exact resetEntry_resetting (s := { s with lock := n, fgState := f }) hr
  · exact resetEntry_high (s := { s with lock := n, fgState := f }) hr hl
  · exact resetEntry_low (s := { s with lock := n, fgState := f }) hr hl

/-- No BODY reads or writes the guard that it runs under. -/
theorem body_guard (op : GuardedOp) (a b : Data) (s : State) (n : Nat) (f : FgState) :
    op.body a b { s with lock := n, fgState := f } =
      ({ (op.body a b s).1 with lock := n, fgState := f }, (op.body a b s).2) := by
  cases op with
  | configure =>
    cases hc : calibrate s.params (periodOperand s.params b) with
    | none =>
      rw [GuardedOp.body, configureBody_fail hc]
      exact configureBody_fail (s := { s with lock := n, fgState := f }) hc
    | some c =>
      rw [GuardedOp.body, configureBody_ok hc, bindPin_eq]
      exact (configureBody_ok (s := { s with lock := n, fgState := f }) hc).trans (by rw [bindPin_eq])
  | feed =>
    simp only [GuardedOp.body, feedBody_eq, ← resetEntry_guard]
    rfl
  | asyncReset =>
    simp only [GuardedOp.body, asyncResetBody_eq, resetEntry_guard]

/-- A BODY answers OK, or FAIL if it is CONFIGURE's and calibration fails (30_encoding R76). -/
theorem body_code (op : GuardedOp) (a b : Data) (s : State) :
    (op.body a b s).2.code =
      if op = .configure ∧ calibrate s.params (periodOperand s.params b) = none then .fail else .ok := by
  obtain ⟨hop, hc, e⟩ | ⟨c, -, hc, e⟩ | ⟨hop, e⟩ | ⟨hop, e⟩ := body_cases op a b s <;> rw [e]
  · exact (if_pos ⟨hop, hc⟩).symm
  · exact (if_neg (by simp [hc])).symm
  · exact (if_neg (by simp [hop])).symm
  · exact (if_neg (by simp [hop])).symm

/-- A guarded command written alone from `Idle` is its BODY and one response: ACQUIRE and RELEASE cancel out
(30_encoding R78). -/
theorem alone_instr (op : GuardedOp) (a b : Data) {s : State} (h : s.fgState = .idle) :
    alone (op.instr a b) s = .next (respond .command (op.body a b s).2 (op.body a b s).1) := by
  have hbody := body_frame op a b s
  have hguard := body_guard op a b s (s.lock + 1) (.held op a b)
  have hrun := guarded_alone (op := op) (a := a) (b := b) h fun u => (body_frame op a b u).lock
  rw [show acquire op a b s = { s with lock := s.lock + 1, fgState := .held op a b } from rfl, hguard] at hrun
  rw [alone, isGuarded_instr, if_pos rfl, funext (exec_instr op a b)]
  refine hrun.trans (congrArg Host.Outcome.next ?_)
  rw [runBody, hguard]
  simp only [release, respond, Nat.add_sub_cancel, ← hbody.lock, ← h, ← hbody.fgState]

/-! ### The unguarded commands -/

/-- A command of a reserved opcode (30_encoding R75). -/
def IsReserved (i : Instr) : Prop := ∃ a b, i = .reserved0 a b ∨ i = .reserved5 a b ∨ i = .reservedF a b

/-- An accessor or a reserved opcode is one unguarded step that only answers: OK, or ILLEGAL for the reserved ones. -/
theorem exec_writesNothing {i : Instr} (h : WritesNothing i = true) :
    ∃ r : State → Answer, (∀ s, exec i s = unguarded (fun s => (s, r s)) s) ∧
      ((IsReserved i ∧ ∀ s, (r s).code = .illegal) ∨ (¬ IsReserved i ∧ ∀ s, (r s).code = .ok)) := by
  cases i with
  | configure | feed | start | asyncReset | tick => cases h
  | reserved0 a b => exact ⟨_, fun _ => rfl, .inl ⟨⟨a, b, .inl rfl⟩, fun _ => rfl⟩⟩
  | reserved5 a b => exact ⟨_, fun _ => rfl, .inl ⟨⟨a, b, .inr (.inl rfl)⟩, fun _ => rfl⟩⟩
  | reservedF a b => exact ⟨_, fun _ => rfl, .inl ⟨⟨a, b, .inr (.inr rfl)⟩, fun _ => rfl⟩⟩
  | _ => exact ⟨_, fun _ => rfl, .inr ⟨by simp [IsReserved], fun _ => rfl⟩⟩

/-- With a command in flight an unguarded one is stuck (93 U19; log 7). -/
theorem unguarded_inFlight {body : State → State × Answer} {s : State} (h : s.fgState ≠ .idle) :
    unguarded body s = .fault .commandInFlight := by
  unfold unguarded
  split
  · exact absurd ‹_› h
  · rfl
  · rfl

/-- In `Held` a guarded command that is not the one in flight is stuck (93 U19; log 7). -/
theorem guarded_held_other {op op' : GuardedOp} {a b a' b' : Data} {body : State → State × Answer} {s : State}
    (h : s.fgState = .held op a b) (hne : ¬ (op = op' ∧ a = a' ∧ b = b')) :
    guarded op' a' b' body s = .fault .commandInFlight := by
  simp only [guarded, h]
  exact if_neg hne

/-! ### Every command that goes on -/

/-- Each command is a TICK, one of the three guarded ones, START, or one that writes no register. -/
theorem instr_cases (i : Instr) :
    i = .tick ∨ (∃ op a b, i = GuardedOp.instr op a b) ∨ (∃ a b, i = .start a b) ∨ WritesNothing i = true := by
  cases i with
  | tick => exact .inl rfl
  | configure a b => exact .inr (.inl ⟨.configure, a, b, rfl⟩)
  | feed a b => exact .inr (.inl ⟨.feed, a, b, rfl⟩)
  | asyncReset a b => exact .inr (.inl ⟨.asyncReset, a, b, rfl⟩)
  | start a b => exact .inr (.inr (.inl ⟨a, b, rfl⟩))
  | _ => exact .inr (.inr (.inr rfl))

/-- All that a command can be, when it goes on: a TICK, the ACQUIRE, BODY or RELEASE of a guarded command, START, or an
answer that writes nothing. -/
theorem exec_next {i : Instr} {s t : State} (h : exec i s = .next t) :
    (i = .tick ∧ t = respond .tick (plain (tickStep s).2) (tickStep s).1) ∨
    (∃ op a b, i = GuardedOp.instr op a b ∧
      ((s.fgState = .idle ∧ t = acquire op a b s) ∨
        (s.fgState = .held op a b ∧ t = runBody (op.body a b) s) ∨
        (∃ code d0 d1, s.fgState = .done code d0 d1 ∧ s.lock ≠ 0 ∧ t = release code d0 d1 s))) ∨
    (s.fgState = .idle ∧ (∃ a b, i = .start a b) ∧
      t = respond .command (plain .ok) { s with startPending := true }) ∨
    (s.fgState = .idle ∧ WritesNothing i = true ∧ ∃ r, t = respond .command r s ∧
      ((IsReserved i ∧ r.code = .illegal) ∨ (¬ IsReserved i ∧ r.code = .ok))) := by
  obtain rfl | ⟨op, a, b, rfl⟩ | ⟨a, b, rfl⟩ | hw := instr_cases i
  · exact .inl ⟨rfl, (Host.Outcome.next.inj h).symm⟩
  · exact .inr (.inl ⟨op, a, b, rfl, guarded_next ((exec_instr op a b s).symm.trans h)⟩)
  · obtain ⟨hidle, rfl⟩ := unguarded_next h
    exact .inr (.inr (.inl ⟨hidle, ⟨a, b, rfl⟩, rfl⟩))
  · obtain ⟨r, hexec, hcode⟩ := exec_writesNothing hw
    obtain ⟨hidle, rfl⟩ := unguarded_next ((hexec s).symm.trans h)
    exact .inr (.inr (.inr ⟨hidle, hw, r s, rfl, hcode.imp (And.imp_right (· s)) (And.imp_right (· s))⟩))

/-- What `t` shares with `s` after any command from `s`: no command writes the parameters, colour memory, what the
agents have yet to do or the count of steps (10_state R22, 20_memory R50). -/
structure ExecFrame (s t : State) : Prop where
  params : t.params = s.params
  memory : t.memory = s.memory
  program : t.program = s.program
  schedule : t.schedule = s.schedule
  steps : t.steps = s.steps

theorem exec_frame {i : Instr} {s t : State} (h : exec i s = .next t) : ExecFrame s t := by
  obtain ⟨-, rfl⟩ | ⟨op, a, b, -, ⟨-, rfl⟩ | ⟨-, rfl⟩ | ⟨_, _, _, -, -, rfl⟩⟩ | ⟨-, -, rfl⟩ | ⟨-, -, r, rfl, -⟩ :=
    exec_next h
  · have f := tickStep_frame s
    exact ⟨f.params, f.memory, f.program, f.schedule, f.steps⟩
  · exact ⟨rfl, rfl, rfl, rfl, rfl⟩
  · have f := body_frame op a b s
    exact ⟨f.params, f.memory, f.program, f.schedule, f.steps⟩
  · exact ⟨rfl, rfl, rfl, rfl, rfl⟩
  · exact ⟨rfl, rfl, rfl, rfl, rfl⟩
  · exact ⟨rfl, rfl, rfl, rfl, rfl⟩

end Sys2Proof.Machine

/-! PROOFS. Steps of the agents, the guard, and whole commands (20_memory R56 to R60, 30_encoding R70 to R79). -/

namespace Sys2Proof.Machine

open Sys2Proof.Claims

/-! ### FG's turn -/

/-- A command that has ended leaves the port (20_memory R59). -/
theorem finishCommand_eq (s : State) :
    finishCommand s = { s with program := if s.fgState = .idle then s.program.tail else s.program } := by
  unfold finishCommand
  split
  next h => rw [if_pos h]
  next h => rw [if_neg (by simp [h])]
  next h => rw [if_neg (by simp [h])]

theorem fgStep_nil {s : State} (hp : s.program = []) : fgStep s = .next s := by
  simp only [fgStep, hp]

theorem fgStep_command {s : State} {cw : CommandWord} {more : List FgAction} (hp : s.program = .command cw :: more) :
    fgStep s = mapNext (fun t => countStep (finishCommand t)) (exec (decodeCommand cw) s) := by
  simp only [fgStep, hp]

theorem fgStep_store {s : State} {k : Nat} {c : Channel} {v : Byte} {more : List FgAction}
    (hp : s.program = .store k c v :: more) :
    fgStep s = mapNext countStep (storeChannel k c v { s with program := more }) := by
  simp only [fgStep, hp]

theorem fgStep_reclaim {s : State} {k : Nat} {more : List FgAction} (hp : s.program = .reclaim k :: more) :
    fgStep s = mapNext countStep (reclaimPosition k { s with program := more }) := by
  simp only [fgStep, hp]

/-! ### TICKs in a row -/

/-- The state after one TICK of TK, with the step counted: TK's step always goes on (`tkStep_eq`). -/
def afterTick (s : State) : State := countStep (respond .tick (plain (tickStep s).2) (tickStep s).1)

theorem tkStep_eq (s : State) : tkStep s = .next (afterTick s) := rfl

theorem ticks_eq (n : Nat) (s : State) : ticks n s = .next (afterTick^[n] s) := by
  induction n generalizing s with
  | zero => rfl
  | succ n ih =>
    rw [ticks, tkStep_eq, andThen_next, ih]
    rfl

/-- A TICK is the same whatever the agents do next. -/
theorem afterTick_schedule (s : State) (l : List Agent) :
    afterTick { s with schedule := l } = { afterTick s with schedule := l } := by
  simp only [afterTick, tickStep_schedule]
  rfl

theorem afterTick_of_exec {s t : State} (h : exec .tick s = .next t) : afterTick s = countStep t :=
  congrArg countStep (Host.Outcome.next.inj h)

theorem tickResponses_nil (code : ResponseCode) : TickResponses 0 code [] := ⟨rfl, fun _ h => nomatch h⟩

theorem tickResponses_append {m n : Nat} {code : ResponseCode} {xs ys : List Response} (hx : TickResponses m code xs)
    (hy : TickResponses n code ys) : TickResponses (m + n) code (xs ++ ys) := by
  obtain ⟨hxlen, hx⟩ := hx
  obtain ⟨hylen, hy⟩ := hy
  exact ⟨by rw [List.length_append, hxlen, hylen], fun r hr => (List.mem_append.1 hr).elim (hx r) (hy r)⟩

theorem tickResponses_singleton (n : Nat) (code : ResponseCode) :
    TickResponses 1 code [{ step := n, port := .tick, code := code, d0 := 0, d1 := 0 }] :=
  ⟨rfl, by simp⟩

/-- Locked TICKs add up in `DROPPED`, modulo its width (41 R109). -/
theorem afterTick_iterate_locked {s : State} (hl : s.lock ≠ 0) (hd : s.dropped < 2 ^ s.params.dropW) (n : Nat) :
    ∃ rs, TickResponses n .locked rs ∧
      afterTick^[n] s =
        { s with
          dropped := (s.dropped + n) % 2 ^ s.params.dropW, responses := s.responses ++ rs, steps := s.steps + n } := by
  induction n with
  | zero => exact ⟨[], tickResponses_nil _, by simp [Nat.mod_eq_of_lt hd]⟩
  | succ n ih =>
    obtain ⟨rs, hrs, hn⟩ := ih
    refine ⟨_, tickResponses_append hrs (tickResponses_singleton (s.steps + n) .locked), ?_⟩
    rw [Function.iterate_succ_apply', hn, afterTick_of_exec (exec_tick_locked (by exact hl))]
    simp only [countStep, withResponse, Nat.mod_add_mod, Nat.add_assoc, List.append_assoc]

/-! ### The code of a TICK's response (41 R118) -/

theorem tickStep_counted {s : State} (h : s.lock = 0) (hc : s.configured = true) : tickStep s = tickPass s := by
  simp [tickStep, h, hc]

theorem highPhaseDone_code (s : State) : (highPhaseDone s).2 = .ok ∨ (highPhaseDone s).2 = .finished := by
  by_cases h : advancedPos s = s.viewEnd
  · rw [highPhaseDone_end ((advanceCursor_pos s).trans h)]
    exact .inr rfl
  · rw [highPhaseDone_advanced h]
    exact .inl rfl

theorem tickPass_code (s : State) : (tickPass s).2 = .ok ∨ (tickPass s).2 = .finished := by
  obtain ⟨-, e⟩ | ⟨-, -, -, e⟩ | ⟨-, -, -, e⟩ | ⟨-, -, -, e⟩ | ⟨-, -, -, e⟩ := tickPass_cases s <;> rw [e]
  · exact .inl rfl
  · exact .inl rfl
  · exact highPhaseDone_code _
  · exact .inl rfl
  · exact highPhaseDone_code _

/-- A TICK answers LOCKED exactly under the guard, and OK or FINISHED otherwise. -/
theorem tickStep_code (s : State) :
    (s.lock ≠ 0 ∧ (tickStep s).2 = .locked) ∨
      (s.lock = 0 ∧ ((tickStep s).2 = .ok ∨ (tickStep s).2 = .finished)) := by
  unfold tickStep
  split_ifs with hl hc
  · exact .inl ⟨hl, rfl⟩
  · exact .inr ⟨not_not.1 hl, tickPass_code s⟩
  · exact .inr ⟨not_not.1 hl, .inl rfl⟩

theorem tickStep_finished_iff {s : State} (hv : s.viewStart < 2 ^ s.params.aw) :
    (tickStep s).2 = .finished ↔ EndsBufferNow s := by
  refine ⟨endsBufferNow_of_finished hv, fun h => ?_⟩
  obtain ⟨⟨hl, hc, -⟩, -⟩ := id h
  rw [tickStep_counted hl hc, tickPass_endsBuffer hv h]

/-! ### Who responds with which code (30_encoding R76) -/

/-- The code of a response is the answer's. -/
theorem code_of_respond {s u : State} {q : Port} {ans : Answer} {r : Response} (hu : u.responses = s.responses)
    (h : (respond q ans u).responses = s.responses ++ [r]) : r.code = ans.code := by
  rw [respond_responses, hu] at h
  exact (congrArg Response.code (List.singleton_inj.1 (List.append_cancel_left h))).symm

theorem not_isReserved {i : Instr} (h : WritesNothing i = false) : ¬ IsReserved i := by
  rintro ⟨a, b, rfl | rfl | rfl⟩
  · cases h
  · cases h
  · cases h

theorem writesNothing_instr (op : GuardedOp) (a b : Data) : WritesNothing (op.instr a b) = false := by
  cases op with
  | configure => rfl
  | feed => rfl
  | asyncReset => rfl

theorem ne_tick_of_writesNothing {i : Instr} (h : WritesNothing i = true) : i ≠ .tick := by
  rintro rfl
  cases h

/-- The table of R76 for a response with this code, given by a step of `i` from `s`. -/
def CodeHasItsProducer (i : Instr) (s : State) (code : ResponseCode) : Prop :=
  (code = .finished ↔ i = .tick ∧ EndsBufferNow s) ∧
    (code = .locked ↔ i = .tick ∧ s.lock ≠ 0) ∧
    (code = .fail ↔ i ≠ .tick ∧ ∃ d0 d1, s.fgState = .done .fail d0 d1) ∧
    (code = .illegal ↔ IsReserved i)

theorem codeHasItsProducer_tick {s : State} (hv : s.viewStart < 2 ^ s.params.aw) :
    CodeHasItsProducer .tick s (tickStep s).2 := by
  have hres : ¬ IsReserved .tick := not_isReserved rfl
  have hfin := tickStep_finished_iff hv
  refine ⟨by simp [hfin], ?_⟩
  obtain ⟨hl, hcode⟩ | ⟨hl, hcode | hcode⟩ := tickStep_code s
  · simp [hcode, hl, hres]
  · simp [hcode, hl, hres]
  · simp [hcode, hl, hres]

theorem codeHasItsProducer_release {s : State} {code : ResponseCode} {d0 d1 : Data} (op : GuardedOp) (a b : Data)
    (hdone : s.fgState = .done code d0 d1) (hcode : code = .ok ∨ code = .fail) :
    CodeHasItsProducer (op.instr a b) s code := by
  have hres := not_isReserved (writesNothing_instr op a b)
  have hne := instr_ne_tick op a b
  obtain rfl | rfl := hcode
  · simp [CodeHasItsProducer, hdone, hres, hne]
  · simp [CodeHasItsProducer, hdone, hres, hne]

theorem codeHasItsProducer_unguarded {i : Instr} {s : State} {code : ResponseCode} (hidle : s.fgState = .idle)
    (hne : i ≠ .tick) (hcode : (IsReserved i ∧ code = .illegal) ∨ (¬ IsReserved i ∧ code = .ok)) :
    CodeHasItsProducer i s code := by
  obtain ⟨hres, rfl⟩ | ⟨hres, rfl⟩ := hcode
  · simp [CodeHasItsProducer, hidle, hres, hne]
  · simp [CodeHasItsProducer, hidle, hres, hne]

/-- From a state that meets the invariant a command gives no response, or one whose code is its own. -/
theorem codeHasItsProducer_of_exec {i : Instr} {s t : State} {r : Response} (h : Invariant s)
    (hexec : exec i s = .next t) (hr : t.responses = s.responses ++ [r]) : CodeHasItsProducer i s r.code := by
  obtain ⟨-, hstart, -⟩ := h.widths
  obtain ⟨rfl, rfl⟩ | ⟨op, a, b, rfl, ⟨-, rfl⟩ | ⟨-, rfl⟩ | ⟨code, d0, d1, hdone, -, rfl⟩⟩ |
    ⟨hidle, ⟨a, b, rfl⟩, rfl⟩ | ⟨hidle, hw, ans, rfl, hcode⟩ := exec_next hexec
  · rw [code_of_respond (tickStep_frame s).responses hr]
    exact codeHasItsProducer_tick hstart
  · exact absurd (List.self_eq_append_right.1 hr) (List.cons_ne_nil _ _)
  · rw [runBody_responses, (body_frame op a b s).responses] at hr
    exact absurd (List.self_eq_append_right.1 hr) (List.cons_ne_nil _ _)
  · rw [code_of_respond rfl hr]
    exact codeHasItsProducer_release op a b hdone (h.done_code _ _ _ hdone)
  · rw [code_of_respond rfl hr]
    exact codeHasItsProducer_unguarded hidle Instr.noConfusion (.inr ⟨not_isReserved rfl, rfl⟩)
  · rw [code_of_respond rfl hr]
    exact codeHasItsProducer_unguarded hidle (ne_tick_of_writesNothing hw) hcode

/-- Of all steps from `Held` only the BODY of the command in flight ends in `Done`, with the code of its body. -/
theorem code_of_body_step {i : Instr} {s t : State} {op : GuardedOp} {a b d0 d1 : Data} {code : ResponseCode}
    (hexec : exec i s = .next t) (hheld : s.fgState = .held op a b) (hdone : t.fgState = .done code d0 d1) :
    code = (op.body a b s).2.code := by
  obtain ⟨-, rfl⟩ | ⟨op', a', b', -, ⟨hidle, -⟩ | ⟨hheld', rfl⟩ | ⟨_, _, _, hdone', -, -⟩⟩ | ⟨hidle, -⟩ | ⟨hidle, -⟩ :=
    exec_next hexec
  · rw [respond_fgState, (tickStep_frame s).fgState, hheld] at hdone
    cases hdone
  · cases hheld.symm.trans hidle
  · obtain ⟨rfl, rfl, rfl⟩ := FgState.held.inj (hheld.symm.trans hheld')
    exact (FgState.done.inj hdone).1.symm
  · cases hheld.symm.trans hdone'
  · cases hheld.symm.trans hidle
  · cases hheld.symm.trans hidle

/-! ### Operand words that a command ignores (30_encoding R73) -/

theorem configureBody_congr {a a' b b' : Data} {s : State}
    (ha : pinOperand s.params a = pinOperand s.params a') (hb : periodOperand s.params b = periodOperand s.params b') :
    configureBody a b s = configureBody a' b' s := by
  simp only [configureBody, ha, hb]

theorem feedBody_congr {a a' b b' : Data} {s : State} (ha : positionOperand s.params a = positionOperand s.params a')
    (hb : positionOperand s.params b = positionOperand s.params b') :
    feedBody a b s = feedBody a' b' s := by
  simp only [feedBody, ha, hb]

/-- From `Idle` a whole guarded command depends on its operand words only through its BODY. -/
theorem alone_instr_congr {op : GuardedOp} {a a' b b' : Data} {s : State} (h : s.fgState = .idle)
    (hbody : op.body a b s = op.body a' b' s) : alone (op.instr a b) s = alone (op.instr a' b') s := by
  rw [alone_instr op a b h, alone_instr op a' b' h, hbody]

end Sys2Proof.Machine

namespace Sys2Proof.Claims

open Sys2Proof.Machine

/-- Settles O6: a whole guarded command is its BODY and a response, CONFIGURE's and FEED's BODY read the low bits only,
and no other command reads its operands. -/
theorem ignoredOperandBitsHaveNoEffect : Obligations.IgnoredOperandBitsHaveNoEffect := by
  intro s a a' b b' hidle
  refine ⟨fun ha hb => ?_, fun ha hb => ?_, ?_, rfl, rfl, rfl, rfl, rfl, rfl, rfl, rfl, rfl, rfl, rfl, rfl, rfl⟩
  · exact alone_instr_congr (op := .configure) hidle (configureBody_congr ha hb)
  · exact alone_instr_congr (op := .feed) hidle (feedBody_congr ha hb)
  · exact alone_instr_congr (op := .asyncReset) hidle rfl

/-- Settles O8: each response is a TICK's, a RELEASE's with the code its BODY kept, or an unguarded answer. -/
theorem responseCodesHaveTheirProducers : Obligations.ResponseCodesHaveTheirProducers := by
  refine ⟨fun i s t r h hexec hr => codeHasItsProducer_of_exec h hexec hr,
    fun i s t op a b d0 d1 code hexec hheld hdone => ?_,
    rfl, rfl, rfl, rfl, rfl, fun code => by cases code <;> decide⟩
  rw [code_of_body_step hexec hheld hdone, body_code]
  by_cases hfail : op = .configure ∧ calibrate s.params (periodOperand s.params b) = none
  · rw [if_pos hfail]
    exact ⟨.inl rfl, iff_of_true rfl hfail⟩
  · rw [if_neg hfail]
    exact ⟨.inr rfl, iff_of_false ResponseCode.noConfusion hfail⟩

end Sys2Proof.Claims

/-! PROOFS. The two agents, the guard and colour memory (20_memory). -/

namespace Sys2Proof.Machine

open Sys2Proof.Claims

/-! ### The turn of the command port -/

/-- FG's turn with a command word presented: `exec` of the decoded command, a command that has ended taken off its port,
and the step counted (20_memory R56, R59). -/
theorem step_fg_command {s : State} {rest : List Agent} {cw : CommandWord} {more : List FgAction}
    (hv : s.params.Valid) (hl : s.lock ≠ 3) (hs : s.schedule = .fg :: rest) (hp : s.program = .command cw :: more) :
    step s = mapNext (fun t => countStep (finishCommand t)) (exec (decodeCommand cw) { s with schedule := rest }) := by
  rw [step_fg hv hl hs]
  exact fgStep_command hp

/-- A table word that decodes stands for a port word that decodes to the same command (log 16). -/
theorem portWordOfTable_of_decodeTableWord {nbits w : Nat} {i : Instr} (h : decodeTableWord nbits w = some i) :
    ∃ word, portWordOfTable nbits w = some word ∧ decode word = .ok i := by
  unfold decodeTableWord at h
  split at h
  next => cases h
  next word hword =>
    refine ⟨word, hword, ?_⟩
    split at h
    next j hj =>
      obtain rfl := Option.some.inj h
      exact hj
    next => cases h

/-- A run begins with a step that goes on. -/
theorem run_succ (M : Host.Core) {s t : M.State} (h : M.step s = .next t) (n : Nat) : M.run (n + 1) s = M.run n t := by
  rw [Host.Core.run, h]

/-! ### The whole command (30_encoding R78) -/

/-- From `Idle` an unguarded command ends in its one step, with one response and the guard as it was. -/
theorem exec_unguarded_idle {i : Instr} (ht : i ≠ .tick) (hg : isGuarded i = false) {s : State}
    (h : s.fgState = .idle) :
    ∃ u ans, exec i s = .next (respond .command ans u) ∧ u.responses = s.responses ∧ u.fgState = s.fgState ∧
      u.lock = s.lock := by
  obtain ⟨body, hexec, hbody⟩ := exec_unguarded ht hg
  refine ⟨(body s).1, (body s).2, (hexec s).trans (unguarded_idle h), ?_⟩
  obtain hsame | ⟨-, hstart⟩ := hbody
  · rw [hsame]
    exact ⟨rfl, rfl, rfl⟩
  · rw [hstart]
    exact ⟨rfl, rfl, rfl⟩

/-- A command of the command port written alone from `Idle` gives one response and leaves the guard as it was. -/
theorem alone_idle {i : Instr} (ht : i ≠ .tick) {s : State} (h : s.fgState = .idle) :
    ∃ u ans, alone i s = .next (respond .command ans u) ∧ u.responses = s.responses ∧ u.fgState = s.fgState ∧
      u.lock = s.lock := by
  cases hg : isGuarded i with
  | true =>
    obtain ⟨op, a, b, rfl⟩ := isGuarded_iff.1 hg
    have hbody := body_frame op a b s
    exact ⟨_, _, alone_instr op a b h, hbody.responses, hbody.fgState, hbody.lock⟩
  | false =>
    obtain ⟨u, ans, hexec, hu⟩ := exec_unguarded_idle ht hg h
    exact ⟨u, ans, by rw [alone, hg]; exact hexec, hu⟩

/-! ### Reads of colour memory (20_memory R52, R55) -/

theorem channelValue_stored {s : State} {k : Nat} {c : Channel} {v : Byte}
    (h : s.memory.read (cellAddress s.params k c) = some v) : channelValue s k c = v := by
  simp only [channelValue, h]

theorem channelValue_free {s : State} {k : Nat} {c : Channel} (h : s.memory.read (cellAddress s.params k c) = none) :
    channelValue s k c = Config.freeByte (3 * s.draws + c.index) := by
  simp only [channelValue, h]

end Sys2Proof.Machine

namespace Sys2Proof.Claims

open Sys2Proof.Machine

/-- Settles O10: the turn of each agent is `exec` with the step counted, and `finishCommand` on FG's port. -/
theorem stepRunsThePresentedCommand : Obligations.StepRunsThePresentedCommand := by
  refine ⟨fun s cw i more rest hv hl hs hp hi => ?_, fun s rest hv hl hs => ?_⟩
  · obtain rfl := Except.ok.inj hi
    rw [step_fg_command hv hl hs hp]
    cases exec (decodeCommand cw) { s with schedule := rest } with
    | next t => exact congrArg (fun u => Host.Outcome.next (countStep u)) (finishCommand_eq t)
    | fault r => rfl
    | refused r => rfl
  · rw [step_tk hv hl hs]
    rfl

/-- Settles O11: a command word is placed first in FG's program with FG's turn next, the strobe as TK's turn. -/
theorem placedTableWordRunsNext : Obligations.PlacedTableWordRunsNext := by
  intro s nbits w i hv hl hi
  obtain ⟨word, hword, hdecode⟩ := portWordOfTable_of_decodeTableWord hi
  have hplace : s.withFetchWord nbits w = present word s := by simp only [State.withFetchWord, hword]
  rw [hplace]
  match word with
  | .command cw =>
    obtain rfl := Except.ok.inj hdecode
    rw [step_fg_command (s := present (.command cw) s) hv hl rfl rfl]
    show mapNext _ (exec _ { present (.command cw) s with schedule := s.schedule }) = _
    cases exec (decodeCommand cw) { present (.command cw) s with schedule := s.schedule } with
    | next t =>
      simp only [mapNext_next, finishCommand_eq, ne_eq, decodeCommand_ne_tick, not_false_eq_true, true_and]
      rfl
    | fault r => rfl
    | refused r => rfl
  | .strobe true =>
    obtain rfl := Except.ok.inj hdecode
    rw [step_tk (s := present (.strobe true) s) hv hl rfl]
    simp only [ne_eq, not_true_eq_false, false_and, if_false]
    rfl
  | .strobe false => cases hdecode

/-- Settles O12: each turn without an input only takes the turn, and `step` looks at the parameters and `LOCK` first. -/
theorem stepWithoutAnInputOrOutOfRange : Obligations.StepWithoutAnInputOrOutOfRange := by
  refine ⟨fun s hv hl hs => ?_, fun s rest hv hl hs hp => ?_, fun s rest hv hl hs hstore hreclaim => ?_,
    fun s hv => if_pos hv, fun s hv hl => ?_⟩
  · rw [step_eq_agentStep hv hl, agentStep, hs]
  · rw [step_fg hv hl hs]
    exact fgStep_nil hp
  · rw [step_fgMemory hv hl hs, fgMemoryStep, show afterPort { s with schedule := rest } = afterPort s from rfl]
    cases hp : afterPort s with
    | nil => rfl
    | cons act more =>
      cases act with
      | command cw => rfl
      | store k c v => exact absurd hp (hstore k c v more)
      | reclaim k => exact absurd hp (hreclaim k more)
  · rw [step, if_neg (not_not.2 hv), if_pos hl]

/-- Settles O13: the three cases of `guarded`; no BODY writes `LOCK` or the responses. -/
theorem guardedCommandRunsInThreeSteps : Obligations.GuardedCommandRunsInThreeSteps := by
  intro op a b s
  rw [exec_instr]
  have hbody := body_frame op a b s
  refine ⟨guarded_idle, fun hheld => ?_, fun code d0 d1 => guarded_done⟩
  exact ⟨_, _, _, _, guarded_held hheld, rfl, hbody.lock, hbody.responses⟩

/-- Settles O14: an unguarded command asks for `Idle`, and in `Held` a guarded one for its own operation and words. -/
theorem commandInFlightShutsOutOthers : Obligations.CommandInFlightShutsOutOthers := by
  refine ⟨fun s i hf ht hg => ?_, fun s op op' a b a' b' hheld hne => ?_⟩
  · obtain ⟨body, hexec, -⟩ := exec_unguarded ht hg
    rw [hexec]
    exact unguarded_inFlight hf
  · rw [exec_instr]
    refine guarded_held_other hheld ?_
    rintro ⟨rfl, rfl, rfl⟩
    exact hne rfl

/-- Settles O16: induction on the number of TICKs, each a locked one. -/
theorem ticksInAGuardedWindowAreDropped : Obligations.TicksInAGuardedWindowAreDropped := by
  intro n s hl hd
  obtain ⟨rs, hrs, hn⟩ := afterTick_iterate_locked hl hd n
  exact ⟨rs, hrs, (ticks_eq n s).trans (congrArg Host.Outcome.next hn)⟩

/-- Settles O17: a whole command and a TICK both end in `respond`, on a state with the same responses and guard. -/
theorem everyCommandEndsWithOneResponse : Obligations.EveryCommandEndsWithOneResponse := by
  refine ⟨fun i s ht hidle => ?_, fun s => ?_⟩
  · obtain ⟨u, ans, halone, hresponses, hfg, hlock⟩ := alone_idle ht hidle
    exact ⟨_, _, halone, by rw [respond_responses, hresponses], rfl, hfg.trans hidle, hlock⟩
  · have hframe := tickStep_frame s
    exact ⟨_, _, rfl, by rw [respond_responses, hframe.responses], rfl, hframe.fgState, hframe.lock⟩

/-- Settles O18: induction on the number of turns; a TICK keeps the parameters, `LOCK` and the schedule behind it. -/
theorem scheduledTicksAreTicks : Obligations.ScheduledTicksAreTicks := by
  intro n
  induction n with
  | zero =>
    intro s rest hv hl hs
    exact congrArg Host.Outcome.next (by rw [← show s.schedule = rest from hs])
  | succ n ih =>
    intro s rest hv hl hs
    have hframe := tickStep_frame s
    have hstep : step s = .next { afterTick s with schedule := List.replicate n .tk ++ rest } :=
      (step_tk hv hl hs).trans (congrArg Host.Outcome.next (afterTick_schedule s _))
    have hticks : ticks (n + 1) { s with schedule := rest } = ticks n { afterTick s with schedule := rest } :=
      congrArg (ticks n) (afterTick_schedule s rest)
    exact (run_succ Sys2Proof.core hstep n).trans
      ((ih _ rest (hframe.params ▸ hv) (hframe.lock ▸ hl) rfl).trans hticks.symm)

/-- Settles O19: FG's turn runs the store, and one write is all that reads see. -/
theorem storeWritesOneChannel : Obligations.StoreWritesOneChannel := by
  intro s k c v more rest hv hl hs hp
  have hturn := (step_fg hv hl hs).trans (fgStep_store hp)
  refine ⟨fun hk => ⟨s.memory.write (cellAddress s.params k c) v, ?_, Memory.read_write_same _ _ _,
    fun _ => Memory.read_write_other _ _, fun hwf => Memory.write_wf hwf _ _⟩, fun hk => ?_⟩
  · exact hturn.trans (congrArg (mapNext countStep) (storeChannel_next (by exact hk)))
  · exact hturn.trans (congrArg (mapNext countStep) (storeChannel_fault (by exact hk)))

/-- Settles O20: FG's turn gives the position up, and its three bytes are all that reads miss. -/
theorem reclaimGivesUpOnePosition : Obligations.ReclaimGivesUpOnePosition := by
  intro s k more rest hv hl hs hp
  have hturn := (step_fg hv hl hs).trans (fgStep_reclaim hp)
  refine ⟨fun hk => ⟨s.memory.reclaim s.params k, ?_, Memory.read_reclaim _ _ _,
    fun hwf => Memory.reclaim_wf hwf _ _⟩, fun hk => ?_⟩
  · exact hturn.trans (congrArg (mapNext countStep) (reclaimPosition_next (by exact hk)))
  · exact hturn.trans (congrArg (mapNext countStep) (reclaimPosition_fault (by exact hk)))

/-- Settles O21: each channel is read at its own cell, as stored or as the draw of its number. -/
theorem readColourIsStoredOrFree : Obligations.ReadColourIsStoredOrFree := fun _ _ =>
  ⟨fun _ => channelValue_stored (c := .red), fun _ => channelValue_stored (c := .green),
    fun _ => channelValue_stored (c := .blue), channelValue_free (c := .red), channelValue_free (c := .green),
    channelValue_free (c := .blue), rfl⟩

end Sys2Proof.Claims

/-! PROOFS. TICK and the commands against the traces and the registers (10_state R22 to R40, 41 R111 to R121). -/

namespace Sys2Proof.Machine

open Sys2Proof.Claims

/-! ### Pin events (10_state R30, R40) -/

/-- The pin events of a step from `s` to `t`: each is a mode or a write of the pin then held, the last is a write of
`LEVEL`, and `LEVEL` does not change without one. -/
def PinFollowsLevel (s t : State) : Prop :=
  ∃ evs, t.pinTrace = s.pinTrace ++ evs ∧
    (∀ e ∈ evs, e.step = s.steps ∧ (e.event = .mode t.pin ∨ ∃ l, e.event = .write t.pin l)) ∧
    (evs ≠ [] → evs.getLast? = some { step := s.steps, event := .write t.pin t.level }) ∧
    (t.level ≠ s.level → evs ≠ [])

theorem pinFollowsLevel_quiet {s t : State} (htrace : t.pinTrace = s.pinTrace) (hl : t.level = s.level) :
    PinFollowsLevel s t :=
  ⟨[], by simp [htrace], by simp, fun h => absurd rfl h, fun h => absurd hl h⟩

theorem pinFollowsLevel_write {s t : State} (htrace : t.pinTrace = withPinWrite s t.pin t.level) :
    PinFollowsLevel s t :=
  ⟨_, htrace, by simp, by simp, by simp⟩

theorem pinFollowsLevel_bindPin (pin : Nat) (c : TickCounts) (s : State) : PinFollowsLevel s (bindPin pin c s) := by
  refine ⟨_, bindPin_pinTrace pin c s, ?_, ?_, ?_⟩
  · rw [bindPin_eq]
    simp [bindPinEvents]
  · rw [bindPin_eq]
    simp [bindPinEvents]
  · simp [bindPinEvents]

theorem pinFollowsLevel_resetEntry (s : State) : PinFollowsLevel s (resetEntry s) := by
  obtain ⟨-, e⟩ | ⟨-, -, e⟩ | ⟨-, -, e⟩ := resetEntry_cases s <;> rw [e]
  · exact pinFollowsLevel_quiet rfl rfl
  · exact pinFollowsLevel_write rfl
  · exact pinFollowsLevel_quiet rfl rfl

theorem pinFollowsLevel_body (op : GuardedOp) (a b : Data) (s : State) : PinFollowsLevel s (op.body a b s).1 := by
  obtain ⟨-, -, e⟩ | ⟨c, -, -, e⟩ | ⟨-, e⟩ | ⟨-, e⟩ := body_cases op a b s <;> rw [e]
  · exact pinFollowsLevel_quiet rfl rfl
  · exact pinFollowsLevel_bindPin _ c s
  · exact pinFollowsLevel_resetEntry (feedView a b s)
  · exact pinFollowsLevel_resetEntry s

/-- Both ends of a high phase drive the pin low, once (41 R116, R117). -/
theorem highPhaseDone_pin (s : State) :
    (highPhaseDone s).1.pinTrace = withPinWrite s s.pin false ∧ (highPhaseDone s).1.level = false := by
  by_cases h : advancedPos s = s.viewEnd
  · rw [highPhaseDone_end ((advanceCursor_pos s).trans h)]
    exact ⟨rfl, rfl⟩
  · rw [highPhaseDone_advanced h]
    exact ⟨rfl, rfl⟩

/-- A TICK leaves pin and `LEVEL` alone, or writes the new `LEVEL` to the pin once (41 R118). -/
theorem tickStep_pin (s : State) :
    ((tickStep s).1.pinTrace = s.pinTrace ∧ (tickStep s).1.level = s.level) ∨
      (tickStep s).1.pinTrace = withPinWrite s s.pin (tickStep s).1.level := by
  unfold tickStep
  split_ifs
  · exact .inl ⟨rfl, rfl⟩
  · obtain ⟨-, e⟩ | ⟨-, -, -, e⟩ | ⟨-, -, -, e⟩ | ⟨-, -, -, e⟩ | ⟨-, -, -, e⟩ := tickPass_cases s <;> rw [e]
    · exact .inl ⟨rfl, rfl⟩
    · exact .inl ⟨rfl, rfl⟩
    · obtain ⟨htrace, hl⟩ := highPhaseDone_pin { transition s with counter := 0 }
      exact .inr (hl.symm ▸ htrace)
    · exact .inr rfl
    · obtain ⟨htrace, hl⟩ := highPhaseDone_pin { s with counter := 0 }
      exact .inr (hl.symm ▸ htrace)
  · exact .inl ⟨rfl, rfl⟩

theorem pinFollowsLevel_tickStep (s : State) : PinFollowsLevel s (tickStep s).1 := by
  obtain ⟨htrace, hl⟩ | htrace := tickStep_pin s
  · exact pinFollowsLevel_quiet htrace hl
  · exact pinFollowsLevel_write (htrace.trans (by rw [(tickStep_frame s).pin]))

/-! ### Reads of colour memory (20_memory R66, 41 R117) -/

/-- A high phase ends with no read, Resetting, or with the read of the bit at the new cursor. -/
theorem highPhaseDone_reads (s : State) :
    ((highPhaseDone s).1.readTrace = s.readTrace ∧ (highPhaseDone s).1.draws = s.draws ∧
        (highPhaseDone s).1.resetting = true) ∨
      ((highPhaseDone s).1.readTrace = withRead s (advancedPos s) ∧ (highPhaseDone s).1.draws = s.draws + 1 ∧
        (highPhaseDone s).1.resetting = s.resetting ∧ (highPhaseDone s).1.level = false ∧
        (highPhaseDone s).1.pos = advancedPos s ∧ advancedPos s ≠ s.viewEnd ∧
        (highPhaseDone s).1.bitval = wireBit (colourAt s (advancedPos s)) (highPhaseDone s).1.bit) := by
  by_cases h : advancedPos s = s.viewEnd
  · rw [highPhaseDone_end ((advanceCursor_pos s).trans h)]
    exact .inl ⟨rfl, rfl, rfl⟩
  · rw [highPhaseDone_advanced h]
    exact .inr ⟨rfl, rfl, rfl, rfl, rfl, h, rfl⟩

/-- What a TICK from `s` to `t` that reads colour memory does (41 R117). -/
def ReadsTheNextBit (s t : State) : Prop :=
  CompletesNow s ∧ t.readTrace = withRead s t.pos ∧ t.draws = s.draws + 1 ∧ t.resetting = false ∧ t.level = false ∧
    t.pos ≠ t.viewEnd ∧ t.bitval = wireBit (colourAt s t.pos) t.bit

/-- From a state that differs from `s` in no read, a high phase that ends reads nothing or the next bit. -/
theorem readsTheNextBit_highPhaseDone {s y : State} (hc : CompletesNow s) (hr : y.resetting = false)
    (hreads : y.readTrace = s.readTrace) (hdraws : y.draws = s.draws) (hsteps : y.steps = s.steps)
    (hcolour : ∀ k, colourAt y k = colourAt s k) :
    ((highPhaseDone y).1.readTrace = s.readTrace ∧ (highPhaseDone y).1.draws = s.draws) ∨
      ReadsTheNextBit s (highPhaseDone y).1 := by
  obtain ⟨h1, h2, -⟩ | ⟨h1, h2, h3, h4, h5, h6, h7⟩ := highPhaseDone_reads y
  · exact .inl ⟨h1.trans hreads, h2.trans hdraws⟩
  · refine .inr ⟨hc, ?_, h2.trans (by rw [hdraws]), h3.trans hr, h4, ?_, ?_⟩
    · rw [h1, h5, withRead, withRead, hreads, hsteps]
    · rw [h5, (highPhaseDone_frame y).viewEnd]
      exact h6
    · rw [h7, h5, hcolour]

/-- A TICK reads no colour, or the one of the next bit. -/
theorem tickStep_reads (s : State) :
    ((tickStep s).1.readTrace = s.readTrace ∧ (tickStep s).1.draws = s.draws) ∨ ReadsTheNextBit s (tickStep s).1 := by
  unfold tickStep
  split_ifs with hl hc
  · exact .inl ⟨rfl, rfl⟩
  · have completes : s.target ≤ s.counter + 1 → CompletesNow s := fun ht => ⟨not_not.1 hl, hc, ht⟩
    obtain ⟨-, e⟩ | ⟨-, -, -, e⟩ | ⟨ht, -, -, e⟩ | ⟨-, -, -, e⟩ | ⟨ht, hr, -, e⟩ := tickPass_cases s <;> rw [e]
    · exact .inl ⟨rfl, rfl⟩
    · exact .inl ⟨rfl, rfl⟩
    · exact readsTheNextBit_highPhaseDone (completes ht) rfl rfl rfl rfl fun _ => rfl
    · exact .inl ⟨rfl, rfl⟩
    · exact readsTheNextBit_highPhaseDone (completes ht) hr rfl rfl rfl fun _ => rfl
  · exact .inl ⟨rfl, rfl⟩

/-- Only a TICK reads colour memory. -/
theorem exec_reads {i : Instr} {s t : State} (h : exec i s = .next t) :
    (t.readTrace = s.readTrace ∧ t.draws = s.draws) ∨ (i = .tick ∧ ReadsTheNextBit s t) := by
  obtain ⟨rfl, rfl⟩ | ⟨op, a, b, -, ⟨-, rfl⟩ | ⟨-, rfl⟩ | ⟨_, _, _, -, -, rfl⟩⟩ | ⟨-, -, rfl⟩ | ⟨-, -, r, rfl, -⟩ :=
    exec_next h
  · exact (tickStep_reads s).imp_right (⟨rfl, ·⟩)
  · exact .inl ⟨rfl, rfl⟩
  · have f := body_frame op a b s
    exact .inl ⟨f.readTrace, f.draws⟩
  · exact .inl ⟨rfl, rfl⟩
  · exact .inl ⟨rfl, rfl⟩
  · exact .inl ⟨rfl, rfl⟩

/-! ### The view while Resetting (41 R121) -/

/-- A reset entry always leaves the block Resetting. -/
@[simp] theorem resetEntry_resetting_true (s : State) : (resetEntry s).resetting = true := by
  obtain ⟨hr, e⟩ | ⟨-, -, e⟩ | ⟨-, -, e⟩ := resetEntry_cases s <;> rw [e]
  exact hr

/-- The step from `s` to `t` reads the start of the view, or reads nothing and stays Resetting on the view. -/
def StaysOnTheView (s t : State) : Prop :=
  (t.readTrace = s.readTrace ∧ t.resetting = true ∧ t.viewStart = s.viewStart ∧ t.viewEnd = s.viewEnd) ∨
    t.readTrace = withRead s s.viewStart

theorem staysOnTheView_tickStep {s : State} (hr : s.resetting = true) (hv : s.viewStart < 2 ^ s.params.aw) :
    StaysOnTheView s (tickStep s).1 := by
  unfold tickStep
  split_ifs
  · exact .inl ⟨rfl, hr, rfl, rfl⟩
  · obtain ⟨-, e⟩ | ⟨-, -, -, e⟩ | ⟨-, -, -, e⟩ | ⟨-, hr', -⟩ | ⟨-, hr', -⟩ := tickPass_cases s
    · rw [e]
      exact .inl ⟨rfl, hr, rfl, rfl⟩
    · rw [e]
      exact .inl ⟨rfl, hr, rfl, rfl⟩
    · rw [e]
      have f := highPhaseDone_frame { transition s with counter := 0 }
      obtain ⟨hreads, -, hresetting⟩ | ⟨hreads, -⟩ := highPhaseDone_reads { transition s with counter := 0 }
      · exact .inl ⟨hreads, hresetting, f.viewStart, f.viewEnd⟩
      · rw [advancedPos_transition hv] at hreads
        exact .inr hreads
    · cases hr.symm.trans hr'
    · cases hr.symm.trans hr'
  · exact .inl ⟨rfl, hr, rfl, rfl⟩

/-- A BODY keeps the block Resetting, also where it does nothing. -/
theorem body_resetting (op : GuardedOp) (a b : Data) {s : State} (hr : s.resetting = true) :
    (op.body a b s).1.resetting = true := by
  obtain ⟨-, -, e⟩ | ⟨c, -, -, e⟩ | ⟨-, e⟩ | ⟨-, e⟩ := body_cases op a b s <;> rw [e]
  · exact hr
  · rw [bindPin_eq]
  · exact resetEntry_resetting_true _
  · exact resetEntry_resetting_true s

/-- Only FEED's BODY gives another view (41 R120). -/
theorem body_view (op : GuardedOp) (a b : Data) (s : State) :
    ((op.body a b s).1.viewStart = s.viewStart ∧ (op.body a b s).1.viewEnd = s.viewEnd) ∨
      (op = .feed ∧ (op.body a b s).1.viewStart = positionOperand s.params a ∧
        (op.body a b s).1.viewEnd = positionOperand s.params b) := by
  obtain ⟨-, -, e⟩ | ⟨c, -, -, e⟩ | ⟨hop, e⟩ | ⟨-, e⟩ := body_cases op a b s <;> rw [e]
  · exact .inl ⟨rfl, rfl⟩
  · rw [bindPin_eq]
    exact .inl ⟨rfl, rfl⟩
  · exact .inr ⟨hop, resetEntry_viewStart _, resetEntry_viewEnd _⟩
  · exact .inl ⟨resetEntry_viewStart s, resetEntry_viewEnd s⟩

/-! ### Writers of the registers (10_state R22) -/

/-- The configuration after each BODY: as it was, or that of a CONFIGURE whose calibration succeeds (40 R97, R98). -/
theorem body_configuration (op : GuardedOp) (a b : Data) (s : State) :
    ((op.body a b s).1.configured = s.configured ∧ (op.body a b s).1.pin = s.pin ∧ (op.body a b s).1.tc = s.tc) ∨
      ∃ c, op = .configure ∧ calibrate s.params (periodOperand s.params b) = some c ∧
        (op.body a b s).1.configured = true ∧ (op.body a b s).1.pin = pinOperand s.params a ∧
        (op.body a b s).1.tc = c := by
  obtain ⟨-, -, e⟩ | ⟨c, hop, hc, e⟩ | ⟨-, e⟩ | ⟨-, e⟩ := body_cases op a b s <;> rw [e]
  · exact .inl ⟨rfl, rfl, rfl⟩
  · rw [bindPin_eq]
    exact .inr ⟨c, hop, hc, rfl, rfl, rfl⟩
  · exact .inl ⟨resetEntry_configured _, resetEntry_pin _, resetEntry_tc _⟩
  · exact .inl ⟨resetEntry_configured s, resetEntry_pin s, resetEntry_tc s⟩

/-- The configuration changes only in the BODY of a CONFIGURE whose calibration succeeds (10_state R23, 40 R100). -/
theorem exec_configuration {i : Instr} {s t : State} (h : exec i s = .next t) :
    (t.configured = s.configured ∧ t.pin = s.pin ∧ t.tc = s.tc) ∨
      ∃ a b c, i = .configure a b ∧ s.fgState = .held .configure a b ∧
        calibrate s.params (periodOperand s.params b) = some c ∧
        t.configured = true ∧ t.pin = pinOperand s.params a ∧ t.tc = c := by
  obtain ⟨-, rfl⟩ | ⟨op, a, b, rfl, ⟨-, rfl⟩ | ⟨hheld, rfl⟩ | ⟨_, _, _, -, -, rfl⟩⟩ | ⟨-, -, rfl⟩ |
    ⟨-, -, r, rfl, -⟩ := exec_next h
  · have f := tickStep_frame s
    exact .inl ⟨f.configured, f.pin, f.tc⟩
  · exact .inl ⟨rfl, rfl, rfl⟩
  · obtain hsame | ⟨c, rfl, hc⟩ := body_configuration op a b s
    · exact .inl hsame
    · exact .inr ⟨a, b, c, rfl, hheld, hc⟩
  · exact .inl ⟨rfl, rfl, rfl⟩
  · exact .inl ⟨rfl, rfl, rfl⟩
  · exact .inl ⟨rfl, rfl, rfl⟩

/-- The view changes only in the BODY of a FEED (41 R120). -/
theorem exec_view {i : Instr} {s t : State} (h : exec i s = .next t) (hi : ∀ a b, i ≠ .feed a b) :
    t.viewStart = s.viewStart ∧ t.viewEnd = s.viewEnd := by
  obtain ⟨-, rfl⟩ | ⟨op, a, b, rfl, ⟨-, rfl⟩ | ⟨-, rfl⟩ | ⟨_, _, _, -, -, rfl⟩⟩ | ⟨-, -, rfl⟩ | ⟨-, -, r, rfl, -⟩ :=
    exec_next h
  · have f := tickStep_frame s
    exact ⟨f.viewStart, f.viewEnd⟩
  · exact ⟨rfl, rfl⟩
  · obtain hsame | ⟨rfl, -⟩ := body_view op a b s
    · exact hsame
    · exact absurd rfl (hi a b)
  · exact ⟨rfl, rfl⟩
  · exact ⟨rfl, rfl⟩
  · exact ⟨rfl, rfl⟩

/-- An unguarded command of the command port writes `START_PENDING` or nothing, and responds. -/
theorem exec_unguarded_next {i : Instr} {s t : State} (h : exec i s = .next t) (ht : i ≠ .tick)
    (hg : isGuarded i = false) :
    ∃ r, t = respond .command r s ∨
      ((∃ a b, i = .start a b) ∧ t = respond .command r { s with startPending := true }) := by
  obtain ⟨rfl, -⟩ | ⟨op, a, b, rfl, -⟩ | ⟨-, hstart, rfl⟩ | ⟨-, -, r, rfl, -⟩ := exec_next h
  · exact absurd rfl ht
  · cases (isGuarded_instr op a b).symm.trans hg
  · exact ⟨_, .inr ⟨hstart, rfl⟩⟩
  · exact ⟨r, .inl rfl⟩

/-- No command of the command port writes `BITVAL` or `DROPPED`, and only START writes `START_PENDING`. -/
theorem exec_command_port {i : Instr} {s t : State} (h : exec i s = .next t) (ht : i ≠ .tick) :
    t.bitval = s.bitval ∧ t.dropped = s.dropped ∧ ((∀ a b, i ≠ .start a b) → t.startPending = s.startPending) := by
  obtain ⟨rfl, -⟩ | ⟨op, a, b, -, ⟨-, rfl⟩ | ⟨-, rfl⟩ | ⟨_, _, _, -, -, rfl⟩⟩ | ⟨-, ⟨a, b, rfl⟩, rfl⟩ |
    ⟨-, -, r, rfl, -⟩ := exec_next h
  · exact absurd rfl ht
  · exact ⟨rfl, rfl, fun _ => rfl⟩
  · have f := body_frame op a b s
    exact ⟨f.bitval, f.dropped, fun _ => f.startPending⟩
  · exact ⟨rfl, rfl, fun _ => rfl⟩
  · exact ⟨rfl, rfl, fun hne => absurd rfl (hne a b)⟩
  · exact ⟨rfl, rfl, fun _ => rfl⟩

/-- Only the guarded commands write the guard (20_memory R58). -/
theorem exec_guard {i : Instr} {s t : State} (h : exec i s = .next t) (hg : isGuarded i = false) :
    t.lock = s.lock ∧ t.fgState = s.fgState := by
  obtain ⟨-, rfl⟩ | ⟨op, a, b, rfl, -⟩ | ⟨-, -, rfl⟩ | ⟨-, -, r, rfl, -⟩ := exec_next h
  · have f := tickStep_frame s
    exact ⟨f.lock, f.fgState⟩
  · cases (isGuarded_instr op a b).symm.trans hg
  · exact ⟨rfl, rfl⟩
  · exact ⟨rfl, rfl⟩

/-- An accessor or a reserved opcode writes nothing but its response (43 R140, 30_encoding R75). -/
theorem exec_writesNothing_next {i : Instr} {s t : State} (h : exec i s = .next t) (hw : WritesNothing i = true) :
    t = { s with responses := t.responses } := by
  obtain ⟨r, hexec, -⟩ := exec_writesNothing hw
  obtain ⟨-, rfl⟩ := unguarded_next ((hexec s).symm.trans h)
  rfl

/-- With a command of the command port the view stays while Resetting, unless it is FEED's BODY. -/
theorem exec_resetting {i : Instr} {s t : State} (h : exec i s = .next t) (hr : s.resetting = true) (ht : i ≠ .tick) :
    t.readTrace = s.readTrace ∧ t.resetting = true ∧
      ((t.viewStart = s.viewStart ∧ t.viewEnd = s.viewEnd) ∨
        ∃ a b, s.fgState = .held .feed a b ∧ t.viewStart = positionOperand s.params a ∧
          t.viewEnd = positionOperand s.params b) := by
  obtain ⟨rfl, -⟩ | ⟨op, a, b, -, ⟨-, rfl⟩ | ⟨hheld, rfl⟩ | ⟨_, _, _, -, -, rfl⟩⟩ | ⟨-, -, rfl⟩ | ⟨-, -, r, rfl, -⟩ :=
    exec_next h
  · exact absurd rfl ht
  · exact ⟨rfl, hr, .inl ⟨rfl, rfl⟩⟩
  · refine ⟨(body_frame op a b s).readTrace, body_resetting op a b hr, (body_view op a b s).imp_right ?_⟩
    rintro ⟨rfl, hstart, hend⟩
    exact ⟨a, b, hheld, hstart, hend⟩
  · exact ⟨rfl, hr, .inl ⟨rfl, rfl⟩⟩
  · exact ⟨rfl, hr, .inl ⟨rfl, rfl⟩⟩
  · exact ⟨rfl, hr, .inl ⟨rfl, rfl⟩⟩

/-- A step runs a command, around which it counts itself and moves the program, or it changes no register. -/
theorem step_registers {s t : State} (h : step s = .next t) :
    t = { s with schedule := t.schedule, program := t.program, memory := t.memory, steps := t.steps } ∨
      ∃ i rest u, exec i { s with schedule := rest } = .next u ∧
        t = { u with program := t.program, steps := t.steps } := by
  obtain ⟨-, -, hcases⟩ := step_next h
  obtain ⟨-, rfl⟩ | ⟨rest, u, -, hexec, rfl⟩ | ⟨rest, -, -, rfl⟩ | ⟨rest, cw, more, u, -, -, hexec, rfl⟩ |
    ⟨rest, k, c, v, more, -, -, -, rfl⟩ | ⟨rest, k, more, -, -, -, rfl⟩ | ⟨rest, -, hmem⟩ := hcases
  · exact .inl rfl
  · exact .inr ⟨.tick, rest, u, hexec, rfl⟩
  · exact .inl rfl
  · exact .inr ⟨_, rest, u, hexec, by rw [finishCommand_eq]; rfl⟩
  · exact .inl rfl
  · exact .inl rfl
  · obtain rfl | ⟨k, c, v, more, -, -, rfl⟩ | ⟨k, more, -, -, rfl⟩ := fgMemoryStep_next hmem
    · exact .inl rfl
    · exact .inl rfl
    · exact .inl rfl

end Sys2Proof.Machine

namespace Sys2Proof.Claims

open Sys2Proof.Machine

/-- Settles O22: a TICK reads where its pass ends a high phase with colours left, and no other command reads. -/
theorem colourIsReadOnlyAtABitDecode : Obligations.ColourIsReadOnlyAtABitDecode := fun _ _ _ => exec_reads

/-- Settles O27: each clause is the frame of the commands that it is about. -/
theorem registersHaveTheirWriters : Obligations.RegistersHaveTheirWriters := by
  intro i s t h
  have hframe := exec_frame h
  refine ⟨fun hne => ?_, exec_view h, fun ht hg => ?_, fun ht => (exec_command_port h ht).2.2,
    fun ht => ?_, exec_guard h, exec_writesNothing_next h, hframe.memory, hframe.params, hframe.program,
    hframe.schedule, hframe.steps⟩
  · obtain hsame | ⟨a, b, c, rfl, -⟩ := exec_configuration h
    · exact hsame
    · exact absurd rfl (hne a b)
  · obtain ⟨r, rfl | ⟨-, rfl⟩⟩ := exec_unguarded_next h ht hg
    · exact ⟨rfl, rfl, rfl, rfl, rfl, rfl, rfl⟩
    · exact ⟨rfl, rfl, rfl, rfl, rfl, rfl, rfl⟩
  · obtain ⟨hbitval, hdropped, -⟩ := exec_command_port h ht
    exact ⟨hbitval, hdropped⟩

/-- Settles O28: a step changes the configuration only through the command that it runs. -/
theorem configurationChangesOnlyByConfigure : Obligations.ConfigurationChangesOnlyByConfigure := by
  intro s t h
  obtain ht | ⟨i, rest, u, hexec, ht⟩ := step_registers h
  · rw [ht]
    exact ⟨rfl, .inl ⟨rfl, rfl, rfl⟩⟩
  · rw [ht]
    refine ⟨(exec_frame hexec).params, (exec_configuration hexec).imp_right ?_⟩
    rintro ⟨a, b, c, -, hc⟩
    exact ⟨a, b, c, hc⟩

/-- Settles O29: a TICK writes the pin at most once, with `LEVEL`; CONFIGURE's BODY and a reset entry write it low. -/
theorem pinWritesFollowLevel : Obligations.PinWritesFollowLevel := by
  intro i s t h
  obtain ⟨-, rfl⟩ | ⟨op, a, b, -, ⟨-, rfl⟩ | ⟨-, rfl⟩ | ⟨_, _, _, -, -, rfl⟩⟩ | ⟨-, -, rfl⟩ | ⟨-, -, r, rfl, -⟩ :=
    exec_next h
  · exact pinFollowsLevel_tickStep s
  · exact pinFollowsLevel_quiet rfl rfl
  · exact pinFollowsLevel_body op a b s
  · exact pinFollowsLevel_quiet rfl rfl
  · exact pinFollowsLevel_quiet rfl rfl
  · exact pinFollowsLevel_quiet rfl rfl

/-- Settles O42: the frame of a TICK's responses, and the bounds on its writes and reads. -/
theorem tickIsBounded : Obligations.TickIsBounded := by
  intro s
  have hresponses : (respond .tick (plain (tickStep s).2) (tickStep s).1).responses =
      withResponse s .tick (tickStep s).2 0 0 := by
    have f := tickStep_frame s
    rw [respond_responses, f.responses, f.steps]
    rfl
  have hcode : (tickStep s).2 = .ok ∨ (tickStep s).2 = .finished ∨ (tickStep s).2 = .locked := by
    obtain ⟨-, hc⟩ | ⟨-, hc | hc⟩ := tickStep_code s
    · exact .inr (.inr hc)
    · exact .inl hc
    · exact .inr (.inl hc)
  have hpin : ∃ evs, (tickStep s).1.pinTrace = s.pinTrace ++ evs ∧ evs.length ≤ 1 := by
    obtain ⟨htrace, -⟩ | htrace := tickStep_pin s
    · exact ⟨[], by rw [htrace, List.append_nil], Nat.zero_le _⟩
    · exact ⟨_, htrace, Nat.le_refl _⟩
  have hread : ∃ reads, (tickStep s).1.readTrace = s.readTrace ++ reads ∧ reads.length ≤ 1 := by
    obtain ⟨hreads, -⟩ | ⟨-, hreads, -⟩ := tickStep_reads s
    · exact ⟨[], by rw [hreads, List.append_nil], Nat.zero_le _⟩
    · exact ⟨_, hreads, Nat.le_refl _⟩
  obtain ⟨evs, htrace, hevs⟩ := hpin
  obtain ⟨reads, hreads, hlen⟩ := hread
  exact ⟨_, _, evs, reads, rfl, hresponses, hcode, htrace, hevs, hreads, hlen⟩

/-- Settles O46: FEED's BODY ends Resetting on the new view, and from there a TICK reads only the start of the view. -/
theorem previousViewIsNeverReadAgain : Obligations.PreviousViewIsNeverReadAgain := by
  have htick : ∀ s t : State, s.resetting = true → s.viewStart < 2 ^ s.params.aw → exec .tick s = .next t →
      StaysOnTheView s t := fun s t hr hv h => by
    obtain rfl := Host.Outcome.next.inj h
    exact staysOnTheView_tickStep hr hv
  refine ⟨fun s t a b hheld h => ?_, htick, fun s t hr hv h => ?_⟩
  · obtain rfl := Host.Outcome.next.inj ((guarded_held hheld).symm.trans h)
    rw [runBody, feedBody_eq]
    exact ⟨resetEntry_resetting_true _, resetEntry_viewStart _, resetEntry_viewEnd _⟩
  · obtain ht | ⟨i, rest, u, hexec, ht⟩ := step_registers h
    · rw [ht]
      exact .inl ⟨rfl, hr, rfl, .inl ⟨rfl, rfl⟩⟩
    · rw [ht]
      by_cases hi : i = .tick
      · subst hi
        refine (htick { s with schedule := rest } u hr hv hexec).imp ?_ id
        rintro ⟨hreads, hresetting, hview⟩
        exact ⟨hreads, hresetting, (exec_frame hexec).params, .inl hview⟩
      · obtain ⟨hreads, hresetting, hview⟩ := exec_resetting hexec hr hi
        exact .inl ⟨hreads, hresetting, (exec_frame hexec).params, hview⟩

end Sys2Proof.Claims

/-! PROOFS. The block never halts (70 R195), power-on (70 R180), calibration (40 R96) and the accessors (43). -/

namespace Sys2Proof.Machine

open Sys2Proof.Claims

/-! ### The command port (20_memory R59) -/

theorem portAgrees_idle {s : State} (h : s.fgState = .idle) : PortAgrees s := by
  simp only [PortAgrees, h]

theorem portAgrees_held {s : State} {op : GuardedOp} {a b : Data} (h : s.fgState = .held op a b) :
    PortAgrees s ↔ ∃ cw rest, s.program = .command cw :: rest ∧ decodeCommand cw = op.instr a b := by
  simp only [PortAgrees, h]

theorem portAgrees_done {s : State} {code : ResponseCode} {d0 d1 : Data} (h : s.fgState = .done code d0 d1) :
    PortAgrees s ↔ ∃ cw rest, s.program = .command cw :: rest ∧ isGuarded (decodeCommand cw) = true := by
  simp only [PortAgrees, h]

/-- What the port agrees on is the command in flight and the word that stands first. -/
theorem portAgrees_congr {s t : State} (hf : t.fgState = s.fgState) (hp : t.program = s.program) (h : PortAgrees s) :
    PortAgrees t := by
  simpa only [PortAgrees, hf, hp] using h

/-- With no command word first, no command is in flight. -/
theorem idle_of_portAgrees {s : State} (h : PortAgrees s) (hp : ∀ cw rest, s.program ≠ .command cw :: rest) :
    s.fgState = .idle := by
  cases hf : s.fgState with
  | idle => rfl
  | held op a b =>
    obtain ⟨cw, rest, hprog, -⟩ := (portAgrees_held hf).1 h
    exact absurd hprog (hp cw rest)
  | done code d0 d1 =>
    obtain ⟨cw, rest, hprog, -⟩ := (portAgrees_done hf).1 h
    exact absurd hprog (hp cw rest)

/-- A command that has ended leaves the port free; one in flight keeps its word there. -/
theorem portAgrees_finishCommand {u : State} (h : u.fgState ≠ .idle → PortAgrees u) : PortAgrees (finishCommand u) := by
  by_cases hf : u.fgState = .idle
  · rw [finishCommand_eq]
    exact portAgrees_idle hf
  · rw [finishCommand_eq, if_neg hf]
    exact h hf

/-- The command that FG presents goes on, from every state of the port, and the port agrees again. -/
theorem exec_presented {s : State} {cw : CommandWord} {more : List FgAction} (h : Invariant s) (hport : PortAgrees s)
    (hp : s.program = .command cw :: more) :
    ∃ u, exec (decodeCommand cw) s = .next u ∧ PortAgrees (finishCommand u) := by
  cases hf : s.fgState with
  | idle =>
    cases hg : isGuarded (decodeCommand cw) with
    | true =>
      obtain ⟨op, a, b, hi⟩ := isGuarded_iff.1 hg
      refine ⟨acquire op a b s, by rw [hi, exec_instr]; exact guarded_idle hf, portAgrees_finishCommand fun _ => ?_⟩
      exact (portAgrees_held rfl).2 ⟨cw, more, hp, hi⟩
    | false =>
      obtain ⟨u, ans, hexec, -, hfg, -⟩ := exec_unguarded_idle (decodeCommand_ne_tick cw) hg hf
      exact ⟨_, hexec, portAgrees_finishCommand fun hne => absurd (hfg.trans hf) hne⟩
  | held op a b =>
    obtain ⟨cw', rest, hp', hi⟩ := (portAgrees_held hf).1 hport
    obtain ⟨⟨rfl⟩, -⟩ := List.cons.inj (hp.symm.trans hp')
    refine ⟨runBody (op.body a b) s, by rw [hi, exec_instr]; exact guarded_held hf,
      portAgrees_finishCommand fun _ => ?_⟩
    exact (portAgrees_done rfl).2
      ⟨cw, more, (body_frame op a b s).program.trans hp, by rw [hi]; exact isGuarded_instr op a b⟩
  | done code d0 d1 =>
    obtain ⟨cw', rest, hp', hg⟩ := (portAgrees_done hf).1 hport
    obtain ⟨⟨rfl⟩, -⟩ := List.cons.inj (hp.symm.trans hp')
    obtain ⟨op, a, b, hi⟩ := isGuarded_iff.1 hg
    have hlock : s.lock ≠ 0 := by rw [h.guard_held (by simp [hf])]; decide
    exact ⟨release code d0 d1 s, by rw [hi, exec_instr]; exact guarded_done hf hlock,
      portAgrees_finishCommand fun hne => absurd rfl hne⟩

/-! ### FG's stores and reclaims (20_memory R50) -/

/-- FG has nothing to do that it had not before. -/
theorem storesInRange_mono {s t : State} (hparams : t.params = s.params) (hp : t.program ⊆ s.program)
    (h : StoresInRange s) : StoresInRange t := fun act hact => by
  rw [hparams]
  exact h act (hp hact)

theorem store_inRange {s : State} {k : Nat} {c : Channel} {v : Byte} (h : StoresInRange s)
    (hmem : .store k c v ∈ s.program) : k < 2 ^ s.params.aw := h _ hmem

theorem reclaim_inRange {s : State} {k : Nat} (h : StoresInRange s) (hmem : .reclaim k ∈ s.program) :
    k < 2 ^ s.params.aw := h _ hmem

/-- FG's turn goes on where the port agrees and the stores are in range. -/
theorem fgStep_goesOn {s : State} (h : Invariant s) (hport : PortAgrees s) (hstores : StoresInRange s) :
    ∃ t, fgStep s = .next t ∧ PortAgrees t ∧ t.params = s.params ∧ t.program ⊆ s.program := by
  cases hp : s.program with
  | nil => exact ⟨s, fgStep_nil hp, hport, rfl, by rw [hp]; exact List.Subset.refl _⟩
  | cons act more =>
    cases act with
    | command cw =>
      obtain ⟨u, hexec, hu⟩ := exec_presented h hport hp
      have hframe := exec_frame hexec
      refine ⟨countStep (finishCommand u), by rw [fgStep_command hp, hexec]; rfl, hu, ?_, ?_⟩
      · rw [finishCommand_eq]
        exact hframe.params
      · rw [finishCommand_eq, ← hp, ← hframe.program]
        show (if u.fgState = .idle then u.program.tail else u.program) ⊆ u.program
        split_ifs
        · exact List.tail_subset _
        · exact List.Subset.refl _
    | store k c v =>
      have hk := store_inRange hstores (hp ▸ List.mem_cons_self)
      have hidle := idle_of_portAgrees hport (by simp [hp])
      refine ⟨_, (fgStep_store hp).trans (congrArg (mapNext countStep) (storeChannel_next (by exact hk))),
        portAgrees_idle hidle, rfl, ?_⟩
      exact List.subset_cons_self _ _
    | reclaim k =>
      have hk := reclaim_inRange hstores (hp ▸ List.mem_cons_self)
      have hidle := idle_of_portAgrees hport (by simp [hp])
      refine ⟨_, (fgStep_reclaim hp).trans (congrArg (mapNext countStep) (reclaimPosition_next (by exact hk))),
        portAgrees_idle hidle, rfl, ?_⟩
      exact List.subset_cons_self _ _

/-- The port agrees as long as the port word stays first, whatever comes behind it. -/
theorem portAgrees_keepsPortWord {s t : State} {more : List FgAction} (hport : PortAgrees s)
    (hf : t.fgState = s.fgState) (hp : t.program = portWord s ++ more) : PortAgrees t := by
  have hword : ∀ {cw : CommandWord} {rest : List FgAction}, s.fgState ≠ .idle → s.program = .command cw :: rest →
      t.program = .command cw :: more := fun hne hprog => by
    rw [hp, (portWord_inFlight hne hprog).1]
    rfl
  cases hs : s.fgState with
  | idle => exact portAgrees_idle (hf.trans hs)
  | held op a b =>
    obtain ⟨cw, rest, hprog, hi⟩ := (portAgrees_held hs).1 hport
    exact (portAgrees_held (hf.trans hs)).2 ⟨cw, more, hword (by simp [hs]) hprog, hi⟩
  | done code d0 d1 =>
    obtain ⟨cw, rest, hprog, hg⟩ := (portAgrees_done hs).1 hport
    exact (portAgrees_done (hf.trans hs)).2 ⟨cw, more, hword (by simp [hs]) hprog, hg⟩

theorem fgMemoryStep_nil {s : State} (h : afterPort s = []) : fgMemoryStep s = .next s := by
  simp only [fgMemoryStep, h]

theorem fgMemoryStep_command {s : State} {cw : CommandWord} {more : List FgAction}
    (h : afterPort s = .command cw :: more) : fgMemoryStep s = .next s := by
  simp only [fgMemoryStep, h]

theorem fgMemoryStep_store {s : State} {k : Nat} {c : Channel} {v : Byte} {more : List FgAction}
    (h : afterPort s = .store k c v :: more) :
    fgMemoryStep s = mapNext countStep (storeChannel k c v { s with program := portWord s ++ more }) := by
  simp only [fgMemoryStep, h]

theorem fgMemoryStep_reclaim {s : State} {k : Nat} {more : List FgAction} (h : afterPort s = .reclaim k :: more) :
    fgMemoryStep s = mapNext countStep (reclaimPosition k { s with program := portWord s ++ more }) := by
  simp only [fgMemoryStep, h]

/-- FG's turn on colour memory goes on where the port agrees and the stores are in range. -/
theorem fgMemoryStep_goesOn {s : State} (hport : PortAgrees s) (hstores : StoresInRange s) :
    ∃ t, fgMemoryStep s = .next t ∧ PortAgrees t ∧ t.params = s.params ∧ t.program ⊆ s.program := by
  have hsplit := portWord_append_afterPort s
  cases hafter : afterPort s with
  | nil => exact ⟨s, fgMemoryStep_nil hafter, hport, rfl, List.Subset.refl _⟩
  | cons act more =>
    rw [hafter] at hsplit
    have hmem : act ∈ s.program := by rw [← hsplit]; simp
    have hsub : portWord s ++ more ⊆ s.program := by
      rw [← hsplit]
      exact ((List.sublist_cons_self act more).append_left _).subset
    cases act with
    | command cw => exact ⟨s, fgMemoryStep_command hafter, hport, rfl, List.Subset.refl _⟩
    | store k c v =>
      have hk := store_inRange hstores hmem
      exact ⟨_, (fgMemoryStep_store hafter).trans (congrArg (mapNext countStep) (storeChannel_next (by exact hk))),
        portAgrees_keepsPortWord hport rfl rfl, rfl, hsub⟩
    | reclaim k =>
      have hk := reclaim_inRange hstores hmem
      exact ⟨_, (fgMemoryStep_reclaim hafter).trans (congrArg (mapNext countStep) (reclaimPosition_next (by exact hk))),
        portAgrees_keepsPortWord hport rfl rfl, rfl, hsub⟩

/-- The guard is at most one deep in a state that meets the invariant (10_state R37). -/
theorem lock_ne_three {s : State} (h : Invariant s) : s.lock ≠ 3 := by
  by_cases hf : s.fgState = .idle
  · rw [h.guard_free hf]
    decide
  · rw [h.guard_held hf]
    decide

/-- From a state that meets the invariant, with the port and the stores as R59 and R50 ask, a step goes on. -/
theorem step_goesOn {s : State} (h : Invariant s) (hport : PortAgrees s) (hstores : StoresInRange s) :
    ∃ t, step s = .next t ∧ PortAgrees t ∧ t.params = s.params ∧ t.program ⊆ s.program := by
  have hv := h.params_valid
  have hl := lock_ne_three h
  cases hs : s.schedule with
  | nil =>
    exact ⟨s, by rw [step_eq_agentStep hv hl, agentStep, hs], hport, rfl, List.Subset.refl _⟩
  | cons agent rest =>
    cases agent with
    | fg =>
      rw [step_fg hv hl hs]
      exact fgStep_goesOn (invariant_schedule h rest) hport hstores
    | fgMemory =>
      rw [step_fgMemory hv hl hs]
      exact fgMemoryStep_goesOn (s := { s with schedule := rest }) hport hstores
    | tk =>
      have f := tickStep_frame { s with schedule := rest }
      exact ⟨_, (step_tk hv hl hs).trans (tkStep_eq _), portAgrees_congr f.fgState f.program hport, f.params,
        (List.Perm.of_eq f.program).subset⟩

/-! ### Power-on (70 R180) -/

/-- At power-on the block is Resetting with the cursor before position 0, and every count is 0. -/
theorem invariant_powerOn {p : Params} (hv : p.Valid) : Invariant (State.powerOn p) where
  params_valid := hv
  bit_legal := Nat.le_refl 23
  transmitting_configured := fun hr => nomatch hr
  resetting_cursor := fun _ => ⟨rfl, (previousPosition_eq (two_pow_pos p.aw)).symm, rfl⟩
  resetting_target := fun _ _ => rfl
  timer_bound := ⟨Nat.zero_le _, Nat.zero_le _⟩
  guard_free := fun _ => rfl
  guard_held := fun hf => absurd rfl hf
  counts_bound := ⟨Nat.zero_le _, Nat.zero_le _, Nat.zero_le _, Nat.zero_le _, Nat.zero_le _⟩
  unconfigured_values := fun _ => ⟨rfl, rfl, rfl, rfl⟩
  reset_count := fun hc => nomatch hc
  done_code := fun _ _ _ hd => nomatch hd
  widths := ⟨two_pow_pos _, two_pow_pos _, two_pow_pos _, Nat.sub_lt (two_pow_pos _) Nat.one_pos, two_pow_pos _⟩
  memory_wf := List.Pairwise.nil
  memory_range := fun _ hx => nomatch hx

/-! ### Calibration (40 R96) -/

/-- Whichever candidate `Quant` takes is within tolerance. -/
theorem withinTolerance_of_quantisesTo {p : Params} {d tp k : Nat} (h : QuantisesTo p d tp k) :
    WithinTolerance p (k * tp) d := by
  obtain ⟨htol, rfl⟩ | ⟨-, htol, rfl⟩ := h
  · exact htol
  · exact htol

/-- The rounded-up quotient is the least count whose product reaches `a`. -/
theorem ceilDiv_mul_bounds {a b : Nat} (hb : 0 < b) : a ≤ (a + b - 1) / b * b ∧ (a + b - 1) / b * b < a + b := by
  have hle : (a + b - 1) / b * b ≤ a + b - 1 := Nat.div_mul_le_self _ _
  have hlt : a + b - 1 < (a + b - 1) / b * b + b := Nat.lt_div_mul_add hb
  omega

/-! ### The accessors (43 R141 to R149) -/

theorem reports_zext32 (width v : Nat) : Reports width v (zext32 width v) := zext32_eq

theorem reports_zext32Positive (width v : Nat) : Reports width v (zext32Positive width v) := zext32Positive_eq

/-- From `Idle` the accessor of one register responds with what reports it. -/
theorem getRegister_reports {s : State} (h : s.fgState = .idle) (width : Params → Nat) (value : State → Nat) :
    ∃ d, Reports (width s.params) (value s) d ∧
      getRegister width value s = .next { s with responses := withResponse s .command .ok d 0 } :=
  ⟨_, reports_zext32 _ _, getRegister_idle h⟩

end Sys2Proof.Machine

namespace Sys2Proof.Claims

open Sys2Proof.Machine

/-- Settles O26: a step goes on, keeps the invariant by O25, and leaves FG no more to do than it had. -/
theorem theBlockNeverHalts : Obligations.TheBlockNeverHalts := by
  intro s h hport hstores
  obtain ⟨t, hstep, hport', hparams, hprogram⟩ := step_goesOn h hport hstores
  exact ⟨t, hstep, everyStepKeepsTheInvariant s t h hstep, hport', storesInRange_mono hparams hprogram hstores⟩

/-- Settles O24: each clause at the reset values, and the default parameters are legal. -/
theorem powerOnMeetsTheInvariant : Obligations.PowerOnMeetsTheInvariant :=
  ⟨fun _ => invariant_powerOn, rfl, invariant_powerOn (by decide)⟩

/-- Settles O31: the exact statement of O30 gives soundness and both directions of success. -/
theorem calibrationProperties : Obligations.CalibrationProperties := by
  refine ⟨fun p tp c h => ?sound, fun p tp k0l k0h k1l k1h htp h0l h0h h1l h1h m0l m0h m1l m1h mres => ?succeeds,
    fun p tp d hd hnone => ?fails⟩
  case sound =>
    obtain ⟨htp, h0l, h0h, h1l, h1h, hres, -⟩ := (calibrationIsExact p tp c).1 h
    rw [hres]
    exact ⟨withinTolerance_of_quantisesTo h0l, withinTolerance_of_quantisesTo h0h, withinTolerance_of_quantisesTo h1l,
      withinTolerance_of_quantisesTo h1h, ceilDiv_mul_bounds htp⟩
  case succeeds =>
    exact ⟨{ t0l := k0l, t0h := k0h, t1l := k1l, t1h := k1h, res := (p.nomRes + tp - 1) / tp },
      (calibrationIsExact p tp _).2 ⟨htp, h0l, h0h, h1l, h1h, rfl, m0l, m0h, m1l, m1h, mres⟩⟩
  case fails =>
    cases hc : calibrate p tp with
    | none => rfl
    | some c =>
      obtain ⟨-, h0l, h0h, h1l, h1h, -⟩ := (calibrationIsExact p tp c).1 hc
      obtain rfl | rfl | rfl | rfl := hd
      · exact absurd h0l (hnone _)
      · exact absurd h0h (hnone _)
      · exact absurd h1l (hnone _)
      · exact absurd h1h (hnone _)

/-- Settles O32: eleven vectors, each calibrated by evaluation. -/
theorem defaultTickCounts : Obligations.DefaultTickCounts := by
  unfold Obligations.DefaultTickCounts
  decide

/-- Settles O53: seven accessors of one register; GET_TRES has its own word for a value of more than 32 bits. -/
theorem registerAccessorsRespond : Obligations.RegisterAccessorsRespond := by
  intro s a b hidle
  have hregister := getRegister_reports hidle
  exact ⟨hregister Params.pinW State.pin, hregister Params.cntW (·.tc.t0l), hregister Params.cntW (·.tc.t0h),
    hregister Params.cntW (·.tc.t1l), hregister Params.cntW (·.tc.t1h),
    ⟨_, reports_zext32Positive _ _, exec_getTres_idle a b hidle⟩, hregister Params.dropW State.dropped⟩

/-- Settles O55: the accessor of two registers. -/
theorem timerAccessorResponds : Obligations.TimerAccessorResponds := fun _ a b hidle =>
  ⟨_, _, reports_zext32 _ _, reports_zext32 _ _, exec_getTimer_idle a b hidle⟩

end Sys2Proof.Claims

/-! PROOFS. Symbol timing (41 R111, R112, R119) and whole ASYNC_RESETs (42 R134 to R137). -/

namespace Sys2Proof.Machine

open Sys2Proof.Claims

/-! ### A symbol in ticks -/

/-- A counted tick below the target only counts (41 R111). -/
theorem exec_tick_counting {s : State} (hl : s.lock = 0) (hc : s.configured = true) (h : s.counter + 1 < s.target) :
    exec .tick s = .next { s with counter := s.counter + 1, responses := withResponse s .tick .ok 0 0 } := by
  rw [exec_tick_counted hl hc, tickPass_counting h]
  rfl

theorem highPhaseDone_counter {y : State} (h : y.counter = 0) : (highPhaseDone y).1.counter = 0 := by
  by_cases hend : advancedPos y = y.viewEnd
  · rw [highPhaseDone_end ((advanceCursor_pos y).trans hend)]
  · rw [highPhaseDone_advanced hend]
    exact h

/-- Every completion leaves `COUNTER = 0` (41 R112). -/
theorem tickPass_counter {s : State} (h : s.target ≤ s.counter + 1) : (tickPass s).1.counter = 0 := by
  obtain ⟨hlt, -⟩ | ⟨-, -, -, e⟩ | ⟨-, -, -, e⟩ | ⟨-, -, -, e⟩ | ⟨-, -, -, e⟩ := tickPass_cases s
  · exact absurd h (Nat.not_le.2 hlt)
  · rw [e]
  · rw [e]
    exact highPhaseDone_counter rfl
  · rw [e]
    rfl
  · rw [e]
    exact highPhaseDone_counter rfl

theorem afterTick_counter {s : State} (h : CompletesNow s) : (afterTick s).counter = 0 := by
  obtain ⟨hl, hc, ht⟩ := h
  rw [afterTick_of_exec (exec_tick_counted hl hc)]
  exact tickPass_counter ht

/-- `s` after `n` ticks that only counted, with the responses `rs`. -/
def counted (n : Nat) (rs : List Response) (s : State) : State :=
  { s with counter := s.counter + n, responses := s.responses ++ rs, steps := s.steps + n }

/-- Before the `max(1, T - c)`-th counted tick the ticks only count (41 R119). -/
theorem afterTick_iterate_counting {s : State} (hl : s.lock = 0) (hc : s.configured = true) {n : Nat}
    (hn : n < max 1 (s.target - s.counter)) :
    ∃ rs, TickResponses n .ok rs ∧ afterTick^[n] s = counted n rs s := by
  induction n with
  | zero => exact ⟨[], tickResponses_nil _, by simp [counted]⟩
  | succ n ih =>
    obtain ⟨rs, hrs, he⟩ := ih (by omega)
    have hlt : (counted n rs s).counter + 1 < (counted n rs s).target := by
      show s.counter + n + 1 < s.target
      omega
    refine ⟨_, tickResponses_append hrs (tickResponses_singleton (s.steps + n) .ok), ?_⟩
    rw [Function.iterate_succ_apply', he, afterTick_of_exec (exec_tick_counting (by exact hl) (by exact hc) hlt)]
    simp only [counted, countStep, withResponse, Nat.add_assoc, List.append_assoc]

/-- The `max(1, T - c)`-th counted tick completes the symbol (41 R119). -/
theorem afterTick_iterate_completing {s : State} (hl : s.lock = 0) (hc : s.configured = true) {m : Nat}
    (hm : m + 1 = max 1 (s.target - s.counter)) :
    ∃ rs, TickResponses m .ok rs ∧ CompletesNow (counted m rs s) ∧
      afterTick^[m + 1] s = afterTick (counted m rs s) := by
  obtain ⟨rs, hrs, he⟩ := afterTick_iterate_counting hl hc (n := m) (by omega)
  refine ⟨rs, hrs, ⟨hl, hc, ?_⟩, by rw [Function.iterate_succ_apply', he]⟩
  show s.target ≤ s.counter + m + 1
  omega

/-- A symbol, tick by tick: until it completes, mode and pin trace rest with everything but the counter. -/
theorem ticks_symbol {s : State} (hl : s.lock = 0) (hc : s.configured = true) :
    (∀ n, n < max 1 (s.target - s.counter) →
      ∃ u, ticks n s = .next u ∧ u.counter = s.counter + n ∧ u.resetting = s.resetting ∧ u.pinTrace = s.pinTrace) ∧
      ∃ u, ticks (max 1 (s.target - s.counter)) s = .next u ∧ u.counter = 0 := by
  refine ⟨fun n hn => ?_, ?_⟩
  · obtain ⟨rs, -, he⟩ := afterTick_iterate_counting hl hc hn
    exact ⟨_, ticks_eq n s, by rw [he, counted], by rw [he, counted], by rw [he, counted]⟩
  · obtain ⟨m, hm⟩ : ∃ m, m + 1 = max 1 (s.target - s.counter) := ⟨max 1 (s.target - s.counter) - 1, by omega⟩
    obtain ⟨rs, -, hcompletes, he⟩ := afterTick_iterate_completing hl hc hm
    rw [← hm]
    exact ⟨_, ticks_eq _ s, by rw [he]; exact afterTick_counter hcompletes⟩

/-! ### A whole ASYNC_RESET -/

/-- From `Idle` a whole ASYNC_RESET is one reset entry and the response (OK, 0, 0). -/
theorem alone_asyncReset_idle {s : State} (a b : Data) (h : s.fgState = .idle) :
    alone (.asyncReset a b) s = .next (respond .command (plain .ok) (resetEntry s)) :=
  (alone_instr .asyncReset a b h).trans (by rw [GuardedOp.body, asyncResetBody_eq])

/-- A reset entry while the line is low issues no pin event (42 R132, R133). -/
theorem resetEntry_pinTrace_low {s : State} (h : s.level = false) : (resetEntry s).pinTrace = s.pinTrace := by
  obtain ⟨-, e⟩ | ⟨-, hl, -⟩ | ⟨-, -, e⟩ := resetEntry_cases s
  · rw [e]
  · cases h.symm.trans hl
  · rw [e]

end Sys2Proof.Machine

namespace Sys2Proof.Claims

open Sys2Proof.Machine

/-- Settles O37: the two cases of the pass. -/
theorem countedTickCountsOrCompletes : Obligations.CountedTickCountsOrCompletes := fun _ hl hc =>
  ⟨exec_tick_counting hl hc, fun ht => ⟨_, exec_tick_counted hl hc, tickPass_counter ht⟩⟩

/-- Settles O43: induction on the ticks that only count, and the tick that completes after them. -/
theorem symbolLastsItsTicks : Obligations.SymbolLastsItsTicks := by
  intro s hl hc
  refine ⟨fun n hn => ?_, (ticks_symbol hl hc).2⟩
  obtain ⟨rs, hrs, he⟩ := afterTick_iterate_counting hl hc hn
  exact ⟨rs, hrs, (ticks_eq n s).trans (congrArg Host.Outcome.next he)⟩

/-- Settles O49: a reset entry leaves the block Resetting, and while Resetting it does nothing. -/
theorem asyncResetIsIdempotentWhileLow : Obligations.AsyncResetIsIdempotentWhileLow := by
  intro s a b a' b' hidle hlow
  have hidle' : (respond .command (plain .ok) (resetEntry s)).fgState = .idle := (resetEntry_fgState s).trans hidle
  refine ⟨_, _, alone_asyncReset_idle a b hidle, alone_asyncReset_idle a' b' hidle', resetEntry_pinTrace_low hlow, ?_⟩
  rw [resetEntry_resetting (s := respond .command (plain .ok) (resetEntry s)) (resetEntry_resetting_true s)]
  rfl

/-- Settles O50: the reset entry while high, then the reset symbol from `COUNTER = 1`. -/
theorem asyncResetWhileHighTimesTheReset : Obligations.AsyncResetWhileHighTimesTheReset := by
  intro s a b hidle hlock hconf hr hl
  have hrun := alone_asyncReset_idle a b hidle
  rw [resetEntry_high hr hl] at hrun
  obtain ⟨hcounts, hcompletes⟩ := ticks_symbol (s := respond .command (plain .ok) { s with
    resetting := true, pos := previousPosition s.params s.viewStart, bit := 23, level := false,
    pinTrace := withPinWrite s s.pin false, counter := 1, target := s.tc.res }) hlock hconf
  exact ⟨_, hrun, rfl, rfl, rfl, rfl, rfl, hcounts, hcompletes⟩

/-- Settles O51: the reset entry while low, then the reset symbol from the counter it kept. -/
theorem asyncResetWhileLowKeepsElapsedTime : Obligations.AsyncResetWhileLowKeepsElapsedTime := by
  intro s a b hidle hlock hconf hr hl
  have hrun := alone_asyncReset_idle a b hidle
  rw [resetEntry_low hr hl] at hrun
  obtain ⟨hcounts, hcompletes⟩ := ticks_symbol (s := respond .command (plain .ok) { s with
    resetting := true, pos := previousPosition s.params s.viewStart, bit := 23, target := s.tc.res }) hlock hconf
  exact ⟨_, hrun, rfl, rfl, rfl, rfl, hcounts, hcompletes⟩

/-- Settles O52: a reset entry writes the mode, the cursor, the timer and the pin trace only, case by case. -/
theorem asyncResetKeepsTheRest : Obligations.AsyncResetKeepsTheRest := by
  intro s a b hidle
  refine ⟨_, alone_asyncReset_idle a b hidle, ?_, resetEntry_resetting_true s⟩
  obtain ⟨-, e⟩ | ⟨-, -, e⟩ | ⟨-, -, e⟩ := resetEntry_cases s <;> rw [e] <;> rfl

end Sys2Proof.Claims

/-! PROOFS. A whole frame, bit by bit (41 R119, R122). -/

namespace Sys2Proof.Machine

open Sys2Proof.Claims

/-! ### The cursor over a view -/

/-- The cursor one bit on, as `advanceCursor` moves it (`advanced_eq_nextCursor`). -/
def nextCursor (p : Params) (c : Nat × Nat) : Nat × Nat := if c.2 = 23 then (nextPosition p c.1, 0) else (c.1, c.2 + 1)

theorem advanced_eq_nextCursor (s : State) : (advancedPos s, advancedBit s) = nextCursor s.params (s.pos, s.bit) := by
  unfold advancedPos advancedBit nextCursor
  split_ifs
  · rfl
  · rfl

/-- The bits of `n` colours from position `k` on, each by its position and index. -/
def slots (p : Params) (n k : Nat) : List (Nat × Nat) :=
  (positionsFrom p n k).flatMap fun k => (List.range 24).map (Prod.mk k)

theorem slots_succ (p : Params) (n k : Nat) :
    slots p (n + 1) k = (List.range 24).map (Prod.mk k) ++ slots p n (nextPosition p k) := by
  simp only [slots, positionsFrom, List.flatMap_cons]

/-- From `c` on the cursor meets exactly these bits, and then the end `e` of the view. -/
def Walks (p : Params) (e : Nat) : Nat × Nat → List (Nat × Nat) → Prop
  | c, [] => (nextCursor p c).1 = e
  | c, x :: rest => nextCursor p c = x ∧ x.1 ≠ e ∧ Walks p e x rest

/-- Within a colour the cursor meets the bits that are left, one after the other. -/
theorem walks_bits {p : Params} {e k : Nat} {rest : List (Nat × Nat)} (hk : k ≠ e) (hrest : Walks p e (k, 23) rest)
    {n i : Nat} (h : i + n = 23) : Walks p e (k, i) ((List.range' (i + 1) n).map (Prod.mk k) ++ rest) := by
  induction n generalizing i with
  | zero =>
    obtain rfl : i = 23 := h
    exact hrest
  | succ n ih => exact ⟨if_neg (by omega), hk, ih (by omega)⟩

/-- From just before position `k` the cursor meets the 24 bits of each of `n` colours. -/
theorem walks_slots {p : Params} {e n k : Nat} {c : Nat × Nat} (hc : nextCursor p c = (k, 0)) (hk : k < 2 ^ p.aw)
    (hn : n < 2 ^ p.aw) (he : (k + n) % 2 ^ p.aw = e) : Walks p e c (slots p n k) := by
  induction n generalizing k c with
  | zero =>
    show (nextCursor p c).1 = e
    rw [hc, ← he, Nat.add_zero, Nat.mod_eq_of_lt hk]
  | succ n ih =>
    have hne : k ≠ e := by
      rintro rfl
      have hself : (k + (n + 1)) % 2 ^ p.aw = (k + 0) % 2 ^ p.aw := by rw [he, Nat.add_zero, Nat.mod_eq_of_lt hk]
      have hzero : (n + 1) % 2 ^ p.aw = 0 % 2 ^ p.aw := Nat.ModEq.add_left_cancel' k hself
      rw [Nat.mod_eq_of_lt hn, Nat.zero_mod] at hzero
      omega
    have hnext : (nextPosition p k + n) % 2 ^ p.aw = e := by
      rw [nextPosition, Nat.mod_add_mod, ← he, Nat.add_assoc, Nat.add_comm 1 n]
    rw [slots_succ, show List.range 24 = 0 :: List.range' 1 23 from rfl]
    exact ⟨hc, hne, walks_bits hne (ih (if_pos rfl) (nextPosition_lt _ _) (by omega) hnext) rfl⟩

theorem positionsFrom_length (p : Params) (n k : Nat) : (positionsFrom p n k).length = n := by
  induction n generalizing k with
  | zero => rfl
  | succ n ih => rw [positionsFrom, List.length_cons, ih]

theorem mem_slots {p : Params} {n k : Nat} {x : Nat × Nat} (h : x ∈ slots p n k) : x.1 ∈ positionsFrom p n k := by
  simp only [slots, List.mem_flatMap, List.mem_map] at h
  obtain ⟨k', hk', i, -, rfl⟩ := h
  exact hk'

/-- The view ends `viewSize` colours after its start (10_state R26). -/
theorem viewStart_add_viewSize {s : State} (hs : s.viewStart < 2 ^ s.params.aw) (he : s.viewEnd < 2 ^ s.params.aw) :
    (s.viewStart + viewSize s) % 2 ^ s.params.aw = s.viewEnd := by
  rw [viewSize, Nat.add_mod_mod, show s.viewStart + (s.viewEnd + 2 ^ s.params.aw - s.viewStart) =
    s.viewEnd + 2 ^ s.params.aw by omega, Nat.add_mod_right, Nat.mod_eq_of_lt he]

/-! ### The bits of a frame -/

/-- The bit that the codec gives at a slot. -/
def slotBit (s : State) (x : Nat × Nat) : Bool := wireBit (colourAt s x.1) x.2

/-- The slots of the view of `s`. -/
def viewSlots (s : State) : List (Nat × Nat) := slots s.params (viewSize s) s.viewStart

theorem frameBits_eq (s : State) : frameBits s = (viewSlots s).map (slotBit s) := by
  simp only [frameBits, viewSlots, slots, viewPositions, List.map_flatMap, List.map_map]
  rfl

/-- Each position of the view stands at 24 slots in a row. -/
theorem viewSlots_positions (s : State) :
    (viewSlots s).map Prod.fst = (viewPositions s).flatMap (List.replicate 24) := by
  simp only [viewSlots, slots, viewPositions, List.map_flatMap, List.map_map]
  rfl

theorem viewSlots_length (s : State) : (viewSlots s).length = 24 * viewSize s := by
  rw [← List.length_map (f := Prod.fst), viewSlots_positions]
  simp [viewPositions, positionsFrom_length, List.length_flatMap, Nat.mul_comm]

theorem frameWrites_length (pin : Nat) (t : TickCounts) (start : Nat) (bits : List Bool) :
    (frameWrites pin t start bits).length = 2 * bits.length + 1 := by
  induction bits generalizing start with
  | nil => rfl
  | cons v bits ih =>
    rw [frameWrites, List.length_cons, List.length_cons, ih, List.length_cons]
    omega

theorem frameTicks_cons (t : TickCounts) (v : Bool) (bits : List Bool) :
    frameTicks t (v :: bits) = lowTicks t v + highTicks t v + frameTicks t bits := by
  simp only [frameTicks, List.map_cons, List.sum_cons]

/-- A colour whose three channels are stored is read the same at every draw (20_memory R52). -/
theorem colourAt_of_stored {s t : State} {k : Nat} (hp : t.params = s.params) (hm : t.memory = s.memory)
    (h : ∀ c, (s.memory.read (cellAddress s.params k c)).isSome = true) : colourAt t k = colourAt s k := by
  have hchannel : ∀ c, channelValue t k c = channelValue s k c := fun c => by
    obtain ⟨v, hv⟩ := Option.isSome_iff_exists.1 (h c)
    rw [channelValue_stored hv, channelValue_stored (by rw [hp, hm]; exact hv)]
  simp only [colourAt, hchannel]

/-! ### One bit -/

/-- The state after the TICK whose pass ends a high phase from `y` (`afterTick_high`, `afterTick_transition`). -/
def afterHigh (y : State) : State := countStep (respond .tick (plain (highPhaseDone y).2) (highPhaseDone y).1)

theorem afterTick_high {s : State} (h : CompletesNow s) (hr : s.resetting = false) (hl : s.level = true) :
    afterTick s = afterHigh { s with counter := 0 } := by
  obtain ⟨hlock, hconf, ht⟩ := h
  rw [afterTick_of_exec (exec_tick_counted hlock hconf), tickPass_high ht hr hl]
  rfl

theorem afterTick_transition {s : State} (h : CompletesNow s) (hr : s.resetting = true) (hp : s.startPending = true) :
    afterTick s = afterHigh { transition s with counter := 0 } := by
  obtain ⟨hlock, hconf, ht⟩ := h
  rw [afterTick_of_exec (exec_tick_counted hlock hconf), tickPass_transition ht hr hp]
  rfl

theorem afterTick_low {s : State} (h : CompletesNow s) (hr : s.resetting = false) (hl : s.level = false) :
    afterTick s =
      { s with
        level := true, counter := 0, target := highCount s.tc s.bitval, pinTrace := withPinWrite s s.pin true,
        responses := withResponse s .tick .ok 0 0, steps := s.steps + 1 } :=
  afterTick_of_exec (exec_tick_completes h (tickPass_low (target_le_of_completesNow h) hr hl))

/-- The first state of the low phase of the bit `v` at slot `x`, after the TICK from `y` that starts it
(`afterHigh_advanced`). -/
def lowPhase (x : Nat × Nat) (v : Bool) (y : State) : State :=
  { y with
    bit := x.2, pos := x.1, bitval := v, level := false, target := lowCount y.tc v,
    pinTrace := withPinWrite y y.pin false, readTrace := withRead y x.1, draws := y.draws + 1,
    responses := withResponse y .tick .ok 0 0, steps := y.steps + 1 }

theorem afterHigh_advanced {y : State} (h : advancedPos y ≠ y.viewEnd) :
    afterHigh y = lowPhase (advancedPos y, advancedBit y) (slotBit y (advancedPos y, advancedBit y)) y := by
  rw [afterHigh, highPhaseDone_advanced h]
  rfl

theorem afterHigh_end {y : State} (h : advancedPos y = y.viewEnd) :
    afterHigh y =
      { y with
        resetting := true, startPending := false, level := false, pos := previousPosition y.params y.viewStart,
        bit := 23, counter := 0, target := y.tc.res, pinTrace := withPinWrite y y.pin false,
        responses := withResponse y .tick .finished 0 0, steps := y.steps + 1 } := by
  rw [afterHigh, highPhaseDone_end ((advanceCursor_pos y).trans h)]
  rfl

/-- The first state of the high phase after `n + 1` ticks of the low phase `u`, with the responses `rs`
(`afterTick_iterate_low`). -/
def highPhase (n : Nat) (rs : List Response) (u : State) : State :=
  { u with
    level := true, counter := 0, target := highCount u.tc u.bitval,
    pinTrace := u.pinTrace ++ [{ step := u.steps + n, event := .write u.pin true }],
    responses := u.responses ++ rs, steps := u.steps + (n + 1) }

/-- A low phase ends with the high write on its last tick (41 R114, R119). -/
theorem afterTick_iterate_low {u : State} {n : Nat} (hl : u.lock = 0) (hc : u.configured = true)
    (hr : u.resetting = false) (hlow : u.level = false) (h0 : u.counter = 0) (hn : n + 1 = max 1 u.target) :
    ∃ rs, TickResponses (n + 1) .ok rs ∧ afterTick^[n + 1] u = highPhase n rs u := by
  obtain ⟨rs, hrs, hcompletes, he⟩ := afterTick_iterate_completing hl hc (hn.trans (by rw [h0, Nat.sub_zero]))
  refine ⟨_, tickResponses_append hrs (tickResponses_singleton (u.steps + n) .ok), ?_⟩
  rw [he, afterTick_low hcompletes hr hlow]
  simp only [counted, highPhase, withPinWrite, withResponse, List.append_assoc, Nat.add_assoc]

/-- A high phase of `n + 1` ticks counts `n` times and ends on the next tick (41 R115, R119). -/
theorem afterTick_iterate_high {u : State} {n : Nat} (hl : u.lock = 0) (hc : u.configured = true)
    (hr : u.resetting = false) (hhigh : u.level = true) (h0 : u.counter = 0) (hn : n + 1 = max 1 u.target) :
    ∃ rs, TickResponses n .ok rs ∧
      afterTick^[n + 1] u = afterHigh { u with responses := u.responses ++ rs, steps := u.steps + n } := by
  obtain ⟨rs, hrs, hcompletes, he⟩ := afterTick_iterate_completing hl hc (hn.trans (by rw [h0, Nat.sub_zero]))
  refine ⟨rs, hrs, ?_⟩
  rw [he, afterTick_high hcompletes hr hhigh]
  simp only [counted, ← h0]

/-- `y` with the bit `v` of slot `x` sent, at the end of its high phase, with the responses `rs`. -/
def bitSent (x : Nat × Nat) (v : Bool) (rs : List Response) (y : State) : State :=
  { y with
    pos := x.1, bit := x.2, bitval := v, level := true, counter := 0, target := highCount y.tc v,
    pinTrace := y.pinTrace ++
      [{ step := y.steps, event := .write y.pin false },
        { step := y.steps + lowTicks y.tc v, event := .write y.pin true }],
    readTrace := withRead y x.1, draws := y.draws + 1, responses := y.responses ++ rs,
    steps := y.steps + lowTicks y.tc v + highTicks y.tc v }

/-- One bit in ticks: its low phase, the high write, its high phase (41 R119). -/
theorem afterTick_iterate_bit {y : State} {x : Nat × Nat} {v : Bool} (hv : slotBit y x = v) (hl : y.lock = 0)
    (hc : y.configured = true) (hr : y.resetting = false) (h0 : y.counter = 0)
    (hx : nextCursor y.params (y.pos, y.bit) = x) (hne : x.1 ≠ y.viewEnd) :
    ∃ rs, TickResponses (lowTicks y.tc v + highTicks y.tc v) .ok rs ∧
      afterTick^[lowTicks y.tc v + highTicks y.tc v] (afterHigh y) = afterHigh (bitSent x v rs y) := by
  obtain rfl : (advancedPos y, advancedBit y) = x := (advanced_eq_nextCursor y).trans hx
  obtain ⟨m, hm⟩ : ∃ m, m + 1 = lowTicks y.tc v := ⟨lowTicks y.tc v - 1, Nat.sub_add_cancel (Nat.le_max_left 1 _)⟩
  obtain ⟨n, hn⟩ : ∃ n, n + 1 = highTicks y.tc v := ⟨highTicks y.tc v - 1, Nat.sub_add_cancel (Nat.le_max_left 1 _)⟩
  obtain ⟨lows, hlows, helow⟩ := afterTick_iterate_low
    (u := lowPhase (advancedPos y, advancedBit y) v y) hl hc hr rfl h0 hm
  obtain ⟨highs, hhighs, hehigh⟩ := afterTick_iterate_high
    (u := highPhase m lows (lowPhase (advancedPos y, advancedBit y) v y)) hl hc hr rfl rfl hn
  have hcount : 1 + (m + 1) + n = lowTicks y.tc v + highTicks y.tc v := by omega
  have hrs := tickResponses_append (tickResponses_append (tickResponses_singleton y.steps .ok) hlows) hhighs
  refine ⟨_, hcount ▸ hrs, ?_⟩
  rw [Nat.add_comm, Function.iterate_add_apply, afterHigh_advanced hne, hv, ← hm, helow, ← hn, hehigh]
  simp only [highPhase, lowPhase, bitSent, withPinWrite, withResponse, ← hm, ← hn, List.append_assoc, Nat.add_assoc,
    Nat.add_comm 1, List.cons_append, List.nil_append]

/-! ### The frame -/

/-- `y` after the frame of `bits` and the TICK that ends it: FINISHED, and the block Resetting (41 R116, R119). -/
def frameEnd (bits : List Bool) (bitval : Bool) (reads : List ReadEntry) (draws : Nat) (oks : List Response)
    (y : State) : State :=
  { y with
    resetting := true, startPending := false, level := false, pos := previousPosition y.params y.viewStart, bit := 23,
    bitval := bitval, counter := 0, target := y.tc.res,
    pinTrace := y.pinTrace ++ frameWrites y.pin y.tc y.steps bits, readTrace := y.readTrace ++ reads, draws := draws,
    responses := y.responses ++ oks ++
      [{ step := y.steps + frameTicks y.tc bits, port := .tick, code := .finished, d0 := 0, d1 := 0 }],
    steps := y.steps + frameTicks y.tc bits + 1 }

/-- A bit and then the rest of the frame is the frame. -/
theorem frameEnd_bitSent (x : Nat × Nat) (v : Bool) (rs : List Response) (bits : List Bool) (bitval : Bool)
    (reads : List ReadEntry) (draws : Nat) (oks : List Response) (y : State) :
    frameEnd bits bitval reads draws oks (bitSent x v rs y) =
      frameEnd (v :: bits) bitval ({ step := y.steps, k := x.1 } :: reads) draws (rs ++ oks) y := by
  simp only [frameEnd, bitSent, frameWrites, frameTicks_cons, withRead, List.append_assoc, Nat.add_assoc,
    List.cons_append, List.nil_append]

/-- From the end of a high phase the slots `L` that the cursor still meets are sent, and then the frame ends. -/
theorem afterTick_iterate_frame (L : List (Nat × Nat)) {y : State} (hl : y.lock = 0) (hc : y.configured = true)
    (hr : y.resetting = false) (h0 : y.counter = 0) (hwalk : Walks y.params y.viewEnd (y.pos, y.bit) L)
    (hstored : ∀ x ∈ L, ∀ c, (y.memory.read (cellAddress y.params x.1 c)).isSome = true) :
    ∃ bitval reads draws oks, reads.map ReadEntry.k = L.map Prod.fst ∧
      TickResponses (frameTicks y.tc (L.map (slotBit y))) .ok oks ∧
      afterTick^[frameTicks y.tc (L.map (slotBit y))] (afterHigh y) =
        frameEnd (L.map (slotBit y)) bitval reads draws oks y := by
  induction L generalizing y with
  | nil =>
    have hend : advancedPos y = y.viewEnd := (congrArg Prod.fst (advanced_eq_nextCursor y)).trans hwalk
    refine ⟨y.bitval, [], y.draws, [], rfl, tickResponses_nil _, (afterHigh_end hend).trans ?_⟩
    simp [frameEnd, frameWrites, frameTicks, withPinWrite, withResponse]
  | cons x L ih =>
    obtain ⟨hx, hne, hrest⟩ := hwalk
    obtain ⟨-, hLstored⟩ := List.forall_mem_cons.1 hstored
    obtain ⟨rs, hrs, hbit⟩ := afterTick_iterate_bit (v := slotBit y x) rfl hl hc hr h0 hx hne
    have hbits : L.map (slotBit (bitSent x (slotBit y x) rs y)) = L.map (slotBit y) :=
      List.map_congr_left fun z hz => congrArg (wireBit · z.2) (colourAt_of_stored rfl rfl (hLstored z hz))
    obtain ⟨bitval, reads, draws, oks, hreads, hoks, hframe⟩ :=
      ih (y := bitSent x (slotBit y x) rs y) hl hc hr rfl hrest hLstored
    rw [hbits] at hoks hframe
    refine ⟨bitval, { step := y.steps, k := x.1 } :: reads, draws, rs ++ oks, ?_, ?_, ?_⟩
    · rw [List.map_cons, List.map_cons, hreads]
    · rw [List.map_cons, frameTicks_cons]
      exact tickResponses_append hrs hoks
    · rw [List.map_cons, frameTicks_cons, Nat.add_comm, Function.iterate_add_apply, hbit, ← frameEnd_bitSent]
      exact hframe

end Sys2Proof.Machine

namespace Sys2Proof.Claims

open Sys2Proof.Machine

/-- Settles O44: the transition puts the cursor before the view, and from there induction over the bits of the view. -/
theorem frameIsSentBitByBit : Obligations.FrameIsSentBitByBit := by
  intro s hcompletes hr hp hstart hend hstored
  obtain ⟨hl, hc, -⟩ := id hcompletes
  have hcursor : nextCursor s.params (previousPosition s.params s.viewStart, 23) = (s.viewStart, 0) :=
    (if_pos rfl).trans (congrArg (·, 0) (nextPosition_previousPosition hstart))
  have hwalk : Walks s.params s.viewEnd (previousPosition s.params s.viewStart, 23) (viewSlots s) :=
    walks_slots hcursor hstart (Nat.mod_lt _ (two_pow_pos _)) (viewStart_add_viewSize hstart hend)
  obtain ⟨bitval, reads, draws, oks, hreads, hoks, hframe⟩ :=
    afterTick_iterate_frame (viewSlots s) (y := { transition s with counter := 0 }) hl hc rfl rfl hwalk
      fun x hx => hstored _ (mem_slots hx)
  rw [show (viewSlots s).map (slotBit { transition s with counter := 0 }) = frameBits s from (frameBits_eq s).symm]
    at hoks hframe
  have hticks : ticks (1 + frameTicks s.tc (frameBits s)) s =
      .next (frameEnd (frameBits s) bitval reads draws oks { transition s with counter := 0 }) := by
    rw [ticks_eq, Nat.add_comm, Function.iterate_succ_apply, afterTick_transition hcompletes hr hp]
    exact congrArg Host.Outcome.next hframe
  have hlength : (frameWrites s.pin s.tc s.steps (frameBits s)).length = 48 * viewSize s + 1 := by
    rw [frameWrites_length, frameBits_eq, List.length_map, viewSlots_length]
    omega
  have hpositions : (s.readTrace ++ reads).map ReadEntry.k =
      s.readTrace.map ReadEntry.k ++ (viewPositions s).flatMap (List.replicate 24) := by
    rw [List.map_append, hreads, viewSlots_positions]
  exact ⟨_, oks, hticks, rfl, hlength, hpositions, hoks, rfl, rfl, rfl, rfl, rfl, rfl, rfl, rfl, hc, rfl, rfl, rfl, rfl,
    hl, rfl, rfl⟩

end Sys2Proof.Claims
